-- ==== Sys2Proof/Word.lean ====
section
/-! DEFINITION. The word types of the block: packet words, registers, bytes, the key image (15 R369, 01 R28, 03 R67). -/

namespace Sys2Proof

/-- A packet or memory word (15 R369, 13 R313). -/
abbrev Word := BitVec 64
/-- A management register (01 R28). -/
abbrev Reg := BitVec 32
/-- One byte. -/
abbrev Byte := BitVec 8
/-- The 640-bit key image (03 R67). -/
abbrev Key := BitVec 640
/-- An access point, numbered as its master in Table 12.3: PG0-PG7 are 0-7, the PCIe function is 8 (12 R293). -/
abbrev Ap := Fin 9
/-- A search channel, CH0-CH3 (01 R13). -/
abbrev Chn := Fin 4

end Sys2Proof
end

