-- ==== Sys2Proof/Syntax.lean ====
section
/-! DEFINITION. The commands of the block: one constructor for each row of spec/opcode_table.json, with the row's operands,
and the shapes of those operands. -/

namespace Sys2Proof

/-- A command packet that has passed its check: the access point that delivered it, every header field of Table 15.1 but the
opcode, which the row names, and the payload words (15 R369). `length` is the number of payload words. -/
structure Pkt where
  ap : Ap
  cls : BitVec 2 := 0
  ord : Bool := false
  rsv52 : Bool := false
  tag : BitVec 14 := 0
  rsv37 : BitVec 6 := 0
  arg : BitVec 24 := 0
  pay : List Word := []
  deriving DecidableEq, Repr

/-- What makes a mailbox access: the PCIe window, the boundary-scan register, or a command with its tag: MEM_RD or MEM_WR, MGMT_RD or
MGMT_WR, MEM_RAW_RD or MEM_RAW_WR (12 R294, R297; 18 R437). -/
inductive MbxWho where
  | window | scan
  | mem (tag : BitVec 14)
  | mgmt (tag : BitVec 14)
  | raw (tag : BitVec 14)
  deriving DecidableEq, Repr

/-- Mailbox accesses of one command or request: the master, the first word, the bytes that each access includes, their number, the data of a
write (of a raw form each word with its code), and the CCLK of the check. Each access after the first is to the next word; those of the
management window and the boundary-scan register go half word by half word (12 R297, R298). -/
structure MbxAcc where
  m : Ap
  write : Bool
  word : BitVec 15
  be : Byte
  checked : Nat
  who : MbxWho := .window
  n : Nat := 1
  data : List Word := []
  deriving DecidableEq, Repr

/-- Key cell of the ring (07 Table 7.3); `span` is the key span in bytes. -/
structure KeyCell where
  origin : BitVec 3
  slot : BitVec 9
  profile : BitVec 7
  nlk : BitVec 2
  stamp : Byte
  span : List Byte
  deriving DecidableEq, Repr

/-- One lookup of a result cell: the running best result word and its associated-data words (07 Table 7.4). -/
structure CellLk where
  word : Word
  ad : List Word
  deriving DecidableEq, Repr

/-- Result cell of the ring (07 Table 7.4). -/
structure ResultCell where
  origin : BitVec 3
  slot : BitVec 9
  refuse : BitVec 3
  lks : List CellLk
  poison : Option Word
  deriving DecidableEq, Repr

/-- What one member put into a formation cell: its id, grade and `members` (07 R170). -/
structure MemberId where
  dev : BitVec 3
  grade : BitVec 4
  members : Byte
  deriving DecidableEq, Repr

/-- Geometry of a cascaded profile: lookups minus one, key span in 4-byte units, A_j of each lookup (14 R357). -/
structure Geometry where
  nlk : BitVec 2
  spanWords : Nat
  ad : List Nat
  deriving DecidableEq, Repr

/-- A cascade frame: 248 cell bytes and the control block (14 R355, Table 14.7). -/
structure Frame where
  bytes : List Byte
  ctl : Word
  deriving DecidableEq, Repr

/-- A flit: header, four payload words, CRC (14 R343, Table 14.3). -/
structure Flit where
  hdr : Reg
  w0 : Word
  w1 : Word
  w2 : Word
  w3 : Word
  crc : Reg
  deriving DecidableEq, Repr

/-- Readings of the six junction sensors, signed, 0.25 degrees Celsius (11 R269). -/
structure Temps where
  t0 : BitVec 16
  t1 : BitVec 16
  t2 : BitVec 16
  t3 : BitVec 16
  t4 : BitVec 16
  t5 : BitVec 16
  deriving DecidableEq, Repr

/-- Wake sources of device DARKROOM (11 R280), in the bit order of `wake_en`. -/
inductive WakeSrc where
  | clp | pcie | smbus | alarm
  deriving DecidableEq, Repr

/-- Strap pins as sampled at a reset, and the level of ALIVE_N then (01 R14; 07 R171; 17 Table 17.2; 18 R434). -/
structure Straps where
  cascId : BitVec 3
  factoryN : Bool
  smbAddr : BitVec 2
  aliveN : Bool
  deriving DecidableEq, Repr

/-- A fence cell (07 R184; 14 R357): whether it came in at the east port, the part that sent it, the ring it goes round (east or not), and
the live set that it has met. -/
structure FenceHead where
  east : Bool
  dev : BitVec 3
  ring : Bool
  live : BitVec 8
  deriving DecidableEq, Repr

/-- What the host writes to an entry of the MSI-X table (14 R359, R362): the vector, its message's address and data, its mask bit. -/
structure MsixEntry where
  v : Fin 64
  addr : Word
  data : Reg
  masked : Bool
  deriving DecidableEq, Repr

/-- The commands: one constructor per row of spec/opcode_table.json, in its order. -/
inductive Instr where
  /-- NOP (R379). -/
  | nop (c : Pkt)
  /-- ECHO (R379). -/
  | echo (c : Pkt)
  /-- INFO (R380). -/
  | info (c : Pkt)
  /-- UNLISTED_OPCODE (R370). -/
  | unlistedOpcode (opcode : BitVec 8) (c : Pkt)
  /-- SRCH (R378). -/
  | srch (c : Pkt)
  /-- HSRCH (R93). -/
  | hsrch (c : Pkt)
  /-- SRCH2 (R160). -/
  | srch2 (c : Pkt)
  /-- ENT_WR (R141). -/
  | entWr (c : Pkt)
  /-- ENT_RD (R141). -/
  | entRd (c : Pkt)
  /-- ENT_INS (R144). -/
  | entIns (c : Pkt)
  /-- ENT_DEL (R141). -/
  | entDel (c : Pkt)
  /-- PRIO_WR (R141). -/
  | prioWr (c : Pkt)
  /-- AD_WR (R143). -/
  | adWr (c : Pkt)
  /-- AD_RD (R141). -/
  | adRd (c : Pkt)
  /-- NEG_OPEN (R155). -/
  | negOpen (c : Pkt)
  /-- NEG_COMMIT (R155). -/
  | negCommit (c : Pkt)
  /-- NEG_COMMIT_AT_PHASE (R156). -/
  | negCommitAtPhase (c : Pkt)
  /-- NEG_ABORT (R159). -/
  | negAbort (c : Pkt)
  /-- PART_CFG (R62). -/
  | partCfg (c : Pkt)
  /-- STM_WR (R214). -/
  | stmWr (c : Pkt)
  /-- STM_RD (R214). -/
  | stmRd (c : Pkt)
  /-- STM_CLR (R214). -/
  | stmClr (c : Pkt)
  /-- Q_CFG (R238). -/
  | qCfg (c : Pkt)
  /-- Q_CFG_READ (R236). -/
  | qCfgRead (c : Pkt)
  /-- Q_PUSH (R251). -/
  | qPush (c : Pkt)
  /-- Q_POP (R246). -/
  | qPop (c : Pkt)
  /-- Q_SKIP (R249). -/
  | qSkip (c : Pkt)
  /-- Q_FLUSH (R250). -/
  | qFlush (c : Pkt)
  /-- SPILL_POP (R259). -/
  | spillPop (c : Pkt)
  /-- BUF_GET (R302). -/
  | bufGet (c : Pkt)
  /-- BUF_SHARE (R304). -/
  | bufShare (c : Pkt)
  /-- BUF_RELEASE (R305). -/
  | bufRelease (c : Pkt)
  /-- BUF_WR (R303). -/
  | bufWr (c : Pkt)
  /-- BUF_RD (R303). -/
  | bufRd (c : Pkt)
  /-- MGMT_RD (R381). -/
  | mgmtRd (c : Pkt)
  /-- MGMT_WR (R382). -/
  | mgmtWr (c : Pkt)
  /-- MEM_RD (R287). -/
  | memRd (c : Pkt)
  /-- MEM_WR (R288). -/
  | memWr (c : Pkt)
  /-- MEM_RAW_RD (R324). -/
  | memRawRd (c : Pkt)
  /-- MEM_RAW_WR (R325). -/
  | memRawWr (c : Pkt)
  /-- XPO_SET (R284). -/
  | xpoSet (c : Pkt)
  /-- CH_STATE (R277). -/
  | chState (c : Pkt)
  /-- CH_STATE_DEVICE_DARKROOM (R279). -/
  | chStateDeviceDarkroom (c : Pkt)
  /-- TIME_SET (R190). -/
  | timeSet (c : Pkt)
  /-- TIME_SET_AT_PPS (R196). -/
  | timeSetAtPps (c : Pkt)
  /-- TIME_ADJ_RATE (R191). -/
  | timeAdjRate (c : Pkt)
  /-- TIME_ADJ_STEP (R191). -/
  | timeAdjStep (c : Pkt)
  /-- TIME_ADJ_SLEW (R191). -/
  | timeAdjSlew (c : Pkt)
  /-- CYG_CFG (R201). -/
  | cygCfg (c : Pkt)
  /-- CYG_CFG_OFF (R201). -/
  | cygCfgOff (c : Pkt)
  /-- CH_QUIESCE (R416). -/
  | chQuiesce (c : Pkt)
  /-- CH_RESUME (R417). -/
  | chResume (c : Pkt)
  /-- CH_LOCK (R83). -/
  | chLock (c : Pkt)
  /-- PROOF_START (R328). -/
  | proofStart (c : Pkt)
  /-- CAL_START (R334). -/
  | calStart (c : Pkt)
  /-- REPAIR_BLOCK (R337). -/
  | repairBlock (c : Pkt)
  /-- REPAIR_ROW_REMAP (R337). -/
  | repairRowRemap (c : Pkt)
  /-- FW_STAGE (R384). -/
  | fwStage (c : Pkt)
  /-- FW_SWITCH (R385). -/
  | fwSwitch (c : Pkt)
  /-- IMAGE_SAVE (R386). -/
  | imageSave (c : Pkt)
  /-- DEV_RESET (R387). -/
  | devReset (c : Pkt)
  /-- DEV_RESET_CHANNEL (R405). -/
  | devResetChannel (c : Pkt)
  /-- PROT_PROPOSE (R388). -/
  | protPropose (c : Pkt)
  /-- PROT_COUNTERSIGN (R389). -/
  | protCountersign (c : Pkt)
  /-- PROT_WITHDRAW (R390). -/
  | protWithdraw (c : Pkt)
  /-- PROT_STATUS (R390). -/
  | protStatus (c : Pkt)
  /-- BREACH_CFG (R364). -/
  | breachCfg (c : Pkt)
  /-- REGISTER_WRITE (R5). -/
  | registerWrite (addr val : Reg)
  /-- PROF_CTL_WRITE (R70). -/
  | profCtlWrite (addr val : Reg)
  /-- KB_PCLS_WRITE (R98). -/
  | kbPclsWrite (cls : Fin 16) (val : Reg)
  /-- KB_TPL_WRITE (R103). -/
  | kbTplWrite (addr val : Reg)
  /-- REBUILD (R52). -/
  | rebuild (ch : Chn)
  /-- STAMP_WRITE (R167). -/
  | stampWrite (ch : Chn) (val : Reg)
  /-- RING_EN_WRITE (R170). -/
  | ringEnWrite (val : Reg)
  /-- REJOIN (R184). -/
  | rejoin
  /-- SE_WD_RANGE_WRITE (R229). -/
  | seWdRangeWrite (last : Bool) (val : Reg)
  /-- BG_DIV_WRITE (R230). -/
  | bgDivWrite (val : Reg)
  /-- SE_GCL_HDR_WRITE (R220). -/
  | seGclHdrWrite (n : Fin 1024) (val : Reg)
  /-- PROT_PROVISION (R394). -/
  | protProvision (val : Reg)
  /-- PWR_BG_CTL_WRITE (R281). -/
  | pwrBgCtlWrite (val : Reg)
  /-- RETRAIN (R354). -/
  | retrain (pg : Fin 8) (val : Reg)
  /-- PG_ENABLE_WRITE (R353). -/
  | pgEnableWrite (pg : Fin 8) (val : Reg)
  /-- PCIE_RING_CTL_WRITE (R363). -/
  | pcieRingCtlWrite (val : Reg)
  /-- DB_SQ_TAIL (R360). -/
  | dbSqTail (val : Reg)
  /-- DB_CQ_HEAD (R361). -/
  | dbCqHead (val : Reg)
  /-- AVS_EN_WRITE (R441). -/
  | avsEnWrite (val : Reg)
  /-- TB_SNAP_NS_READ (R206). -/
  | tbSnapNsRead (m : Ap)
  /-- COUNTER_LOW_READ (R30). -/
  | counterLowRead (m : Ap) (addr : Reg)
  /-- CLEAR_ON_READ (R10). -/
  | clearOnRead (m : Ap) (addr : Reg)
  /-- MAILBOX_WINDOW_ACCESS (R298): an access, and those that meet it. -/
  | mailboxWindowAccess (x : MbxAcc) (more : List MbxAcc)
  /-- PCIE_UNMAPPED_ACCESS (R29). -/
  | pcieUnmappedAccess (write : Bool) (addr : Reg)
  /-- SEARCH_ADMISSION (R20). -/
  | searchAdmission (ch : Chn)
  /-- HOLD_LIMIT_EXPIRY (R266). -/
  | holdLimitExpiry (ch : Chn)
  /-- KEY_BUILD (R89). -/
  | keyBuild (ch : Chn)
  /-- EXPOSURE_DEBIT (R263). -/
  | exposureDebit
  /-- SEARCH_RESULT_DELIVERY (R47). -/
  | searchResultDelivery (ch : Chn)
  /-- STREAM_ENGINE_VERDICT (R208). -/
  | streamEngineVerdict (ch : Chn)
  /-- REPLY_EGRESS (R131). -/
  | replyEgress (ap : Ap)
  /-- WRITE_STEP (R146). -/
  | writeStep (ch : Chn)
  /-- WRITE_BUBBLE (R147). -/
  | writeBubble (ch : Chn)
  /-- PHASE_COMMIT (R156). -/
  | phaseCommit (ch : Chn)
  /-- FIX_TIME_END (R158). -/
  | fixTimeEnd (ch : Chn) (p : Fin 64)
  /-- WASH_STEP (R159). -/
  | washStep (ch : Chn)
  /-- SHEET_REBUILD (R52). -/
  | sheetRebuild (ch : Chn)
  /-- CH_LOCK_COPY_END (R86). -/
  | chLockCopyEnd (ch : Chn)
  /-- KEY_CELL_RECEIVE (R174). -/
  | keyCellReceive (east : Bool) (cell : KeyCell)
  /-- RESULT_CELL_MERGE (R176). -/
  | resultCellMerge (east : Bool) (cell : ResultCell)
  /-- CASCADE_ORIGIN_MERGE (R175). -/
  | cascadeOriginMerge (slot : BitVec 9)
  /-- LATE_RESULT_CELL (R182). -/
  | lateResultCell (cell : ResultCell)
  /-- FORMATION_CELL (R170). -/
  | formationCell (cell : List MemberId)
  /-- FORMING_TIMEOUT (R170). -/
  | formingTimeout (reach : BitVec 8)
  /-- NEIGHBOUR_LOST (R181). -/
  | neighbourLost (east : Bool)
  /-- RING_CHANGE_CELL (R181). -/
  | ringChangeCell (live : BitVec 8)
  /-- FENCE_CELL (R184). -/
  | fenceCell (fence : FenceHead)
  /-- GEOMETRY_CELL (R357). -/
  | geometryCell (dev : Fin 8) (profile : BitVec 7) (geo : Geometry)
  /-- CASCADE_FRAME_RECEIVE (R356). -/
  | cascadeFrameReceive (east : Bool) (f : Frame)
  /-- SLEW_END (R191). -/
  | slewEnd
  /-- PPS_IN_EDGE (R194). -/
  | ppsInEdge
  /-- PPS_LOSS (R195). -/
  | ppsLoss
  /-- PPS_OUT_BOUNDARY (R197). -/
  | ppsOutBoundary
  /-- PPS_OUT_PULSE_END (R197). -/
  | ppsOutPulseEnd
  /-- WATCHDOG_SWEEP_VISIT (R229). -/
  | watchdogSweepVisit
  /-- BACKGROUND_VISIT (R230). -/
  | backgroundVisit
  /-- EVENT_COMMIT (R245). -/
  | eventCommit
  /-- EVENT_SPILL (R245). -/
  | eventSpill
  /-- SPILLWAY_WRITE (R257). -/
  | spillwayWrite
  /-- Q_PUSH_HELD_COMPLETE (R251). -/
  | qPushHeldComplete (q : BitVec 18)
  /-- Q_PUSH_TIMEOUT (R251). -/
  | qPushTimeout (q : BitVec 18)
  /-- WORK_ITEM_RELEASE (R252). -/
  | workItemRelease
  /-- WORK_DONE (R253). -/
  | workDone (q : BitVec 18)
  /-- OTHER_MW_RECOMPUTE (R264). -/
  | otherMwRecompute
  /-- THERMAL_SAMPLE (R269). -/
  | thermalSample (t : Temps)
  /-- THERMAL_SHUTDOWN (R272). -/
  | thermalShutdown (t : Temps)
  /-- G_FLOOR_WINDOW (R271). -/
  | gFloorWindow
  /-- IDLE_TIMER_EXPIRY (R273). -/
  | idleTimerExpiry (ch : Chn)
  /-- STATE_ENTRY_COMPLETE (R273). -/
  | stateEntryComplete (ch : Chn)
  /-- CHANNEL_WAKE_COMPLETE (R274). -/
  | channelWakeComplete (ch : Chn)
  /-- PRE_EXPOSURE_WINDOW_OPEN (R278). -/
  | preExposureWindowOpen (ch : Chn) (w : Fin 4)
  /-- PRE_EXPOSURE_WINDOW_CLOSE (R278). -/
  | preExposureWindowClose (ch : Chn) (w : Fin 4)
  /-- DARKROOM_ENTRY (R279). -/
  | darkroomEntry
  /-- DARKROOM_WAKE (R280). -/
  | darkroomWake (src : WakeSrc)
  /-- DARKROOM_EXIT_COMPLETE (R280). -/
  | darkroomExitComplete
  /-- BANK_GROUP_WAKE_COMPLETE (R281). -/
  | bankGroupWakeComplete (g : Fin 7)
  /-- SCRUB_READ (R321). -/
  | scrubRead (ch : Chn)
  /-- SCRUB_CORRECTIVE_WRITE (R322). -/
  | scrubCorrectiveWrite (ch : Chn)
  /-- HEAL_WRITE (R318). -/
  | healWrite
  /-- PROOF_ROW_OP (R331). -/
  | proofRowOp (target : Fin 5) (ok : Bool)
  /-- PROOF_REDIRECT (R330). -/
  | proofRedirect (ch : Chn)
  /-- PROOF_RETURN (R330). -/
  | proofReturn (ch : Chn)
  /-- PROOF_PASS_END (R332). -/
  | proofPassEnd (target : Fin 5) (trim : BitVec 6)
  /-- AUTO_PROOF_START (R335). -/
  | autoProofStart (ch : Chn)
  /-- LENT_PAGE_ACCESS (R336). -/
  | lentPageAccess
  /-- BLOCK_REPAIR_COMPLETE (R338). -/
  | blockRepairComplete (ch : Chn)
  /-- ROW_REMAP (R338). -/
  | rowRemap
  /-- FREE_LIST_REBUILD (R308). -/
  | freeListRebuild
  /-- DATA_FLIT_RECEIVE (R346). -/
  | dataFlitReceive (pg : Fin 8) (f : Flit) (fecOk : Bool)
  /-- CTRL_FLIT_RECEIVE (R344). -/
  | ctrlFlitReceive (pg : Fin 8) (f : Flit)
  /-- REPLAY_TIMEOUT (R349). -/
  | replayTimeout (pg : Fin 8)
  /-- HOST_LOSS (R351). -/
  | hostLoss (pg : Fin 8)
  /-- TRAINING_COMPLETE (R353). -/
  | trainingComplete (port : Fin 10) (pol : Byte) (laneRev : Bool)
  /-- DRAIN_END (R353). -/
  | drainEnd (pg : Fin 8)
  /-- LPI_HEARTBEAT (R352). -/
  | lpiHeartbeat (pg : Fin 8)
  /-- REALIGN_TIMEOUT (R352). -/
  | realignTimeout (pg : Fin 8)
  /-- COMMAND_FETCH (R360). -/
  | commandFetch (words : List Word)
  /-- FETCH_ERROR (R363). -/
  | fetchError
  /-- MSIX_MESSAGE (R362). -/
  | msixMessage
  /-- COAL_TIMEOUT (R362). -/
  | coalTimeout
  /-- FUNCTION_LEVEL_RESET (R363). -/
  | functionLevelReset
  /-- PCIE_LINK_DOWN (R363). -/
  | pcieLinkDown
  /-- MBXBSY_PULSE_END (R299). -/
  | mbxbsyPulseEnd (sideB : Bool)
  /-- AVS_STEP (R427). -/
  | avsStep (wanted : BitVec 5)
  /-- POWER_ON_RESET (R402). -/
  | powerOnReset (straps : Straps)
  /-- COLD_START (R402). -/
  | coldStart (straps : Straps)
  /-- WARM_RESET (R402). -/
  | warmReset (straps : Straps)
  /-- RESET_ASSERT (R402). -/
  | resetAssert
  /-- CHANNEL_RESET_COMPLETE (R405). -/
  | channelResetComplete (ch : Chn)
  /-- QUIESCE_DRAIN_COMPLETE (R134). -/
  | quiesceDrainComplete (ch : Chn)
  /-- FIRMWARE_START (R414). -/
  | firmwareStart
  /-- FIRMWARE_START_TIMEOUT (R414). -/
  | firmwareStartTimeout
  /-- FW_SWITCH_APPLY (R415). -/
  | fwSwitchApply
  /-- FW_SWITCH_TIMEOUT (R415). -/
  | fwSwitchTimeout
  /-- LATENT_IMAGE_SAVE (R409). -/
  | latentImageSave (readBackOk : Bool)
  /-- PROPOSAL_WINDOW_END (R397). -/
  | proposalWindowEnd
  /-- MGMT_ACC (R437). -/
  | mgmtAcc (write : Bool) (addr val : Reg)
  /-- TAP_RESET (R435). -/
  | tapReset (straps : Straps)
  /-- EXTEST_INSTRUCTION (R436). -/
  | extestInstruction (code : Byte) (straps : Straps)
  /-- TEMP (R434). -/
  | temp
  /-- STATE (R434). -/
  | state
  /-- IDENT (R434). -/
  | ident
  /-- WAKE (R434). -/
  | wake
  /-- TEMPS (R434). -/
  | temps
  /-- ALERT_RESPONSE_READ (R434). -/
  | alertResponseRead
  /-- SNIPPET_HANDOVER (R89). -/
  | snippetHandover (ch : Chn)
  /-- EXPOSURE_REFILL (R263). -/
  | exposureRefill
  /-- LFCLK_EDGE (R198). -/
  | lfclkEdge
  /-- SET_PENDING_TIMEOUT (R196). -/
  | setPendingTimeout
  /-- CTRL_FLIT_SEND (R344). -/
  | ctrlFlitSend (pg : Fin 8)
  /-- GROUP_REALIGNED (R352). -/
  | groupRealigned (pg : Fin 8)
  /-- MSIX_UNMASK (R362). -/
  | msixUnmask (entry : MsixEntry)
  /-- FLASH_STAGE_COMPLETE (R384). -/
  | flashStageComplete (image : Option (List Word))
  /-- RANGE_DESCRIPTOR_WRITE (R238). -/
  | rangeDescriptorWrite
  /-- LATENT_IMAGE_DEVELOPED (R406). -/
  | latentImageDeveloped
  /-- FIRMWARE_LOADED (R414). -/
  | firmwareLoaded (image : Option (List Word))
  /-- PCIE_LINK_UP (R359). -/
  | pcieLinkUp (speed : BitVec 3) (width : BitVec 2)
  /-- VDDIO_RISE (R427). -/
  | vddioRise
  deriving DecidableEq, Repr

end Sys2Proof
end

