-- ==== Sys2Proof/WellFormed.lean ====
section
/-! DEFINITION. When a command is well formed: it is a command of its row. A packet row that shares its opcode with another row is
told from it by its argument (15 Table 15.4), and a register row by its address. -/

namespace Sys2Proof

/-- The opcodes of 15 Table 15.4. -/
def listedOpcodes : List Byte :=
  [0x00, 0x01, 0x02, 0x10, 0x11, 0x12, 0x20, 0x21, 0x22, 0x23, 0x24, 0x25, 0x26, 0x28, 0x29, 0x2a, 0x2b, 0x30, 0x31, 0x32, 0x38, 0x39, 0x3a, 0x3b, 0x3c, 0x3d, 0x40, 0x41, 0x42, 0x43, 0x44, 0x48] ++
  [0x49, 0x4a, 0x4b, 0x4c, 0x4d, 0x50, 0x51, 0x52, 0x53, 0x54, 0x58, 0x59, 0x5a, 0x5b, 0x5c, 0x5d, 0x5e, 0x5f, 0x60, 0x61, 0x68, 0x69, 0x6a, 0x6b, 0x70]

/-- A packet has at most 255 payload words (15 R369). -/
def Pkt.wf (c : Pkt) : Bool := c.pay.length ≤ 255

/-- Side B of the mailbox serves PG4-PG7 and the PCIe function (12 R297). -/
def MbxAcc.sideB (x : MbxAcc) : Bool := x.m.val ≥ 4

/-- Accesses of 32 bits, to the four bytes at an address (12 R297): those of the management window and the boundary-scan register. -/
def MbxAcc.byHalf (x : MbxAcc) : Bool := match x.who with | .mgmt _ | .scan => true | _ => false

/-- Accesses of MEM_RAW_RD and MEM_RAW_WR (13 R324). -/
def MbxAcc.isRaw (x : MbxAcc) : Bool := match x.who with | .raw _ => true | _ => false

/-- Half words of the mailbox before the first access. -/
def MbxAcc.halves (x : MbxAcc) : Nat := 2 * x.word.toNat + (if x.be == 0xf0 then 1 else 0)

/-- Most accesses of a command or request (12 R287; 13 Table 13.5; 15 R381). -/
def MbxAcc.most (x : MbxAcc) : Nat :=
  match x.who with
  | .window | .scan => 1
  | .mem _ => if x.write then 254 else 255
  | .mgmt _ => 128
  | .raw _ => 127

/-- A write includes at least one byte of its word; a read includes all eight, or the four of a 32-bit access (12 R297, R298). The
accesses lie in the mailbox; the boundary-scan register accesses as the PCIe function (18 R437). -/
def MbxAcc.wf (x : MbxAcc) : Bool :=
  decide (1 ≤ x.n) && decide (x.n ≤ x.most) && x.be != 0 &&
  x.data.length == (if x.write then (if x.isRaw then 2 * x.n else x.n) else 0) &&
  (if x.byHalf then (x.be == 0x0f || x.be == 0xf0) && decide (x.halves + x.n ≤ 65536) && (x.who != .scan || x.m == 8)
   else decide (x.word.toNat + x.n ≤ 32768) && (x.write || x.be == 0xff || (x.who == .window && (x.be == 0x0f || x.be == 0xf0))))

/-- A key span is at most 80 bytes, the width of the key image (03 R67). -/
def KeyCell.wf (c : KeyCell) : Bool := c.span.length ≤ 80

/-- A result cell carries 1 to 4 lookups with at most 8 associated-data words each (05 R122, 07 Table 7.4). -/
def ResultCell.wf (c : ResultCell) : Bool :=
  decide (1 ≤ c.lks.length) && decide (c.lks.length ≤ 4) && c.lks.all (fun l => l.ad.length ≤ 8)

/-- Geometry of one to four lookups over a key span of at most 80 bytes (14 R357). -/
def Geometry.wf (g : Geometry) : Bool :=
  g.ad.length == g.nlk.toNat + 1 && g.ad.all (· ≤ 8) && decide (g.spanWords ≤ 20)

/-- `lo ≤ addr < hi`. -/
def inBlock (addr : Reg) (lo hi : Nat) : Bool := decide (lo ≤ addr.toNat) && decide (addr.toNat < hi)

/-- An aligned address inside the register window. A write at an address that also has a row of its own has the effect of that row. -/
def plainWrite (addr : Reg) : Bool := inBlock addr 0 0x200000 && addr.toNat % 4 == 0

/-- Every command names its own row. -/
def Instr.wf : Instr → Bool
  | .nop c => c.wf
  | .echo c => c.wf
  | .info c => c.wf
  | .unlistedOpcode opcode c => c.wf && !listedOpcodes.contains opcode
  | .srch c => c.wf
  | .hsrch c => c.wf
  | .srch2 c => c.wf
  | .entWr c => c.wf
  | .entRd c => c.wf
  | .entIns c => c.wf
  | .entDel c => c.wf
  | .prioWr c => c.wf
  | .adWr c => c.wf
  | .adRd c => c.wf
  | .negOpen c => c.wf
  | .negCommit c => c.wf && (!c.arg.getLsbD 8)
  | .negCommitAtPhase c => c.wf && (c.arg.getLsbD 8)
  | .negAbort c => c.wf
  | .partCfg c => c.wf
  | .stmWr c => c.wf
  | .stmRd c => c.wf
  | .stmClr c => c.wf
  | .qCfg c => c.wf && (!c.arg.getLsbD 18)
  | .qCfgRead c => c.wf && (c.arg.getLsbD 18)
  | .qPush c => c.wf
  | .qPop c => c.wf
  | .qSkip c => c.wf
  | .qFlush c => c.wf
  | .spillPop c => c.wf
  | .bufGet c => c.wf
  | .bufShare c => c.wf
  | .bufRelease c => c.wf
  | .bufWr c => c.wf
  | .bufRd c => c.wf
  | .mgmtRd c => c.wf
  | .mgmtWr c => c.wf
  | .memRd c => c.wf
  | .memWr c => c.wf
  | .memRawRd c => c.wf
  | .memRawWr c => c.wf
  | .xpoSet c => c.wf
  | .chState c => c.wf && (!c.arg.getLsbD 23)
  | .chStateDeviceDarkroom c => c.wf && (c.arg.getLsbD 23)
  | .timeSet c => c.wf && (!c.arg.getLsbD 0)
  | .timeSetAtPps c => c.wf && (c.arg.getLsbD 0)
  | .timeAdjRate c => c.wf && (!(c.arg.getLsbD 0 ^^ c.arg.getLsbD 1))
  | .timeAdjStep c => c.wf && (c.arg.getLsbD 0 && !c.arg.getLsbD 1)
  | .timeAdjSlew c => c.wf && (!c.arg.getLsbD 0 && c.arg.getLsbD 1)
  | .cygCfg c => c.wf && (!c.arg.getLsbD 4)
  | .cygCfgOff c => c.wf && (c.arg.getLsbD 4)
  | .chQuiesce c => c.wf
  | .chResume c => c.wf
  | .chLock c => c.wf
  | .proofStart c => c.wf
  | .calStart c => c.wf
  | .repairBlock c => c.wf && (!c.arg.getLsbD 23)
  | .repairRowRemap c => c.wf && (c.arg.getLsbD 23)
  | .fwStage c => c.wf
  | .fwSwitch c => c.wf
  | .imageSave c => c.wf
  | .devReset c => c.wf && (c.arg.extractLsb' 16 2 != 1)
  | .devResetChannel c => c.wf && (c.arg.extractLsb' 16 2 == 1)
  | .protPropose c => c.wf
  | .protCountersign c => c.wf
  | .protWithdraw c => c.wf
  | .protStatus c => c.wf
  | .breachCfg c => c.wf
  | .registerWrite addr _ => plainWrite addr
  | .profCtlWrite addr _ => inBlock addr 0x90000 0x92000
  | .kbPclsWrite _ _ => true
  | .kbTplWrite addr _ => inBlock addr 0x50000 0x51000
  | .rebuild _ => true
  | .stampWrite _ _ => true
  | .ringEnWrite _ => true
  | .rejoin => true
  | .seWdRangeWrite _ _ => true
  | .bgDivWrite _ => true
  | .seGclHdrWrite _ _ => true
  | .protProvision _ => true
  | .pwrBgCtlWrite _ => true
  | .retrain _ _ => true
  | .pgEnableWrite _ _ => true
  | .pcieRingCtlWrite _ => true
  | .dbSqTail _ => true
  | .dbCqHead _ => true
  | .avsEnWrite _ => true
  | .tbSnapNsRead _ => true
  | .counterLowRead _ _ => true
  | .clearOnRead _ _ => true
  | .mailboxWindowAccess x more => x.wf && more.all (·.wf)
  | .pcieUnmappedAccess _ addr => addr.toNat < 0x2000000
  | .searchAdmission _ => true
  | .holdLimitExpiry _ => true
  | .keyBuild _ => true
  | .exposureDebit => true
  | .searchResultDelivery _ => true
  | .streamEngineVerdict _ => true
  | .replyEgress _ => true
  | .writeStep _ => true
  | .writeBubble _ => true
  | .phaseCommit _ => true
  | .fixTimeEnd _ _ => true
  | .washStep _ => true
  | .sheetRebuild _ => true
  | .chLockCopyEnd _ => true
  | .keyCellReceive _ cell => cell.wf
  | .resultCellMerge _ cell => cell.wf
  | .cascadeOriginMerge _ => true
  | .lateResultCell cell => cell.wf
  | .formationCell cell => cell.length ≤ 8
  | .formingTimeout _ => true
  | .neighbourLost _ => true
  | .ringChangeCell _ => true
  | .fenceCell _ => true
  | .geometryCell _ _ geo => geo.wf
  | .cascadeFrameReceive _ f => f.bytes.length == 248
  | .slewEnd => true
  | .ppsInEdge => true
  | .ppsLoss => true
  | .ppsOutBoundary => true
  | .ppsOutPulseEnd => true
  | .watchdogSweepVisit => true
  | .backgroundVisit => true
  | .eventCommit => true
  | .eventSpill => true
  | .spillwayWrite => true
  | .qPushHeldComplete _ => true
  | .qPushTimeout _ => true
  | .workItemRelease => true
  | .workDone _ => true
  | .otherMwRecompute => true
  | .thermalSample _ => true
  | .thermalShutdown _ => true
  | .gFloorWindow => true
  | .idleTimerExpiry _ => true
  | .stateEntryComplete _ => true
  | .channelWakeComplete _ => true
  | .preExposureWindowOpen _ _ => true
  | .preExposureWindowClose _ _ => true
  | .darkroomEntry => true
  | .darkroomWake _ => true
  | .darkroomExitComplete => true
  | .bankGroupWakeComplete _ => true
  | .scrubRead _ => true
  | .scrubCorrectiveWrite _ => true
  | .healWrite => true
  | .proofRowOp _ _ => true
  | .proofRedirect _ => true
  | .proofReturn _ => true
  | .proofPassEnd _ _ => true
  | .autoProofStart _ => true
  | .lentPageAccess => true
  | .blockRepairComplete _ => true
  | .rowRemap => true
  | .freeListRebuild => true
  | .dataFlitReceive _ _ _ => true
  | .ctrlFlitReceive _ _ => true
  | .replayTimeout _ => true
  | .hostLoss _ => true
  | .trainingComplete _ _ _ => true
  | .drainEnd _ => true
  | .lpiHeartbeat _ => true
  | .realignTimeout _ => true
  | .commandFetch words => decide (1 ≤ words.length) && words.length ≤ 256
  | .fetchError => true
  | .msixMessage => true
  | .coalTimeout => true
  | .functionLevelReset => true
  | .pcieLinkDown => true
  | .mbxbsyPulseEnd _ => true
  | .avsStep _ => true
  | .powerOnReset _ => true
  | .coldStart _ => true
  | .warmReset _ => true
  | .resetAssert => true
  | .channelResetComplete _ => true
  | .quiesceDrainComplete _ => true
  | .firmwareStart => true
  | .firmwareStartTimeout => true
  | .fwSwitchApply => true
  | .fwSwitchTimeout => true
  | .latentImageSave _ => true
  | .proposalWindowEnd => true
  | .mgmtAcc _ _ _ => true
  | .tapReset _ => true
  | .extestInstruction _ _ => true
  | .temp => true
  | .state => true
  | .ident => true
  | .wake => true
  | .temps => true
  | .alertResponseRead => true
  | .snippetHandover _ => true
  | .exposureRefill => true
  | .lfclkEdge => true
  | .setPendingTimeout => true
  | .ctrlFlitSend _ => true
  | .groupRealigned _ => true
  | .msixUnmask _ => true
  | .flashStageComplete _ => true
  | .rangeDescriptorWrite => true
  | .latentImageDeveloped => true
  | .firmwareLoaded _ => true
  | .pcieLinkUp _ _ => true
  | .vddioRise => true

end Sys2Proof
end

