-- ==== Sys2Proof/Config.lean ====
section
/-! DEFINITION. The free values: what the spec leaves open and no proof may know (each has no body). -/

namespace Sys2Proof.Config

/-- A fresh word for every count of the model's own counter `State.free` (notes/assumptions/3.md). It stands for read data of a
mailbox collision (12 R298), the non-array power estimate (11 R264), the placement of a block of a SPAN pair (03 R82), the
equalisation values found by training (14 R342), and every other value the spec leaves open for a single use. -/
opaque freeWord : Nat → Word

/-- The 16-bit identifier of physical block `b` of channel `c` (01 R17): fixed for one part, otherwise open. -/
opaque blockId : Nat → Nat → BitVec 16

/-- The sections of the image of generation `gen`, in order, each with its type, its `addr` and its number of registers or words: 17 R408
gives the form of each and leaves to the part how it cuts and orders them. -/
opaque imageLayout : Nat → List (Nat × Nat × Nat)

/-- Word `i` of the repair-map section of the image of generation `gen` (17 R408: a format that only the part interprets). -/
opaque mapWord : Nat → Nat → Word

/-- Word `i` of buffer `b` beyond the end of the image of generation `gen` that it holds: what the buffer held before. -/
opaque imageRest : Nat → Nat → Nat → Word

/-- The order in which the proof rotation of channel `c` visits the 66 physical blocks (13 R328: fixed, not given). -/
opaque rotation : Nat → Nat → Nat

/-- Whether an increment that lies midway between two units of 2^-32 ns is rounded up (08 R188 says "the nearest"). -/
opaque tieUp : Bool

/-- Whether a difference of times in units of 2^-32 ns that is no whole number of nanoseconds is rounded up when a word gives it in
nanoseconds (08 Table 8.7, 10 Table 10.5 give no rounding). -/
opaque stepUp : Int → Bool

/-- The cells that the part has room for in a direction of the ring, its insertion reserve included (07 R178 gives no size). -/
opaque ringRoom : Nat

end Sys2Proof.Config
end

