-- ==== Sys2Proof/Machine/State.lean ====
section
/-! DEFINITION. The state of the block: plain data, holding every piece of state spec/ gives the part, and the queue of waiting
commands. Sparse tables are lists of (key, value) pairs with strictly rising keys; an SRAM word is listed exactly when it has
been written (13 R314); a register is listed exactly when it differs from its Factory value (00 R7). -/

namespace Sys2Proof.Machine

/-- Speed grade (00 R2, 01 Table 1.12). -/
inductive Grade where
  | g10 | g12
  deriving DecidableEq, Repr

/-- One SRAM word: 64 data bits and the 40 check bits of its 8 bytes, byte i's c4-c0 in [5i+4:5i] (13 R311, Table 13.5). -/
structure SWord where
  data : Word
  chk : BitVec 40
  deriving DecidableEq, Repr

/-- A sparse memory: (key, word) pairs, keys strictly rising; an unlisted word has never been written (13 R314). -/
abbrev Sram := List (Nat × SWord)

/-- One TCAM row (02 Table 2.1) with its two check codes (13 R319); `ctl` is valid, in_a, in_b, head from bit 3 down. -/
structure Row where
  d : BitVec 80 := 0
  m : BitVec 80 := 0
  ctl : BitVec 4 := 0
  cd : Byte := 0
  cm : Byte := 0
  deriving DecidableEq, Repr

/-- A command handed to a unit: opcode, packet, the work queue that released it if any (10 R253), the CCLK of its check and its
place in the order of checks (15 R373). -/
structure Cmd where
  op : Byte
  p : Pkt
  wq : Option (BitVec 18) := none
  chk : Nat := 0
  id : Nat := 0
  deriving DecidableEq, Repr

/-- Breach-test setting of one target (14 R364-R366): argument fields, n or random register, threshold, XOR mask, limit, eligible
units seen, injections since the setting, and the units held by reorder: of those received, a flit with the finding of its FEC, and of those
sent. -/
structure Brx where
  tx : Bool := false
  action : BitVec 2 := 0
  random : Bool := false
  ctl : Bool := false
  recrc : Bool := false
  n : BitVec 32 := 0
  s : BitVec 32 := 0
  thresh : BitVec 32 := 0
  xor : Word := 0
  limit : BitVec 32 := 0
  seen : Nat := 0
  done : Nat := 0
  heldFlit : Option Flit := none
  heldFec : Bool := true
  heldFrame : Option Frame := none
  outFlit : Option Flit := none
  outFrame : Option Frame := none
  deriving DecidableEq, Repr

/-- What happens when a reply has left: nothing, the device reset of 15 R387, the clock stop of 11 R279, or a breach-test setting that comes
into force (14 R364). -/
inductive After where
  | nothing | deviceReset | stopClock
  | breach (t : Fin 10) (x : Brx)
  deriving DecidableEq, Repr

/-- A reply that has not yet left (05 R115, R127-R132). `ready` is the CCLK in which it is complete; `cnt` the channel it counts
against in flight; `stamp` the group and stamp it carries (06 R161); `sent` the flits of it that have left. -/
structure Reply where
  ap : Ap
  op : Byte
  status : Byte
  tag : BitVec 14
  info : BitVec 24
  pay : List Word
  id : Nat
  ready : Nat
  ord : Bool := false
  cnt : Option Chn := none
  stamp : Option (Chn × Byte) := none
  ringSlot : Option (BitVec 9) := none
  after : After := .nothing
  sent : Nat := 0
  deriving DecidableEq, Repr

/-- What a search keeps of its profile from the CCLK of its check (03 R72): PROF_CTL, PROF_KB, PROF_SE, its PROF_LK registers,
SE_PROF_POS, and the width g of each lookup's partition. -/
structure Prof where
  ctl : Reg
  kb : Reg
  se : Reg
  lk : List Reg
  pos : Reg
  g : List Nat
  deriving DecidableEq, Repr

/-- The outcome of one lookup: the channel that holds the winner (05 R121), the fields of its result word (02 Table 2.8), the winner's g
associated-data words with their poison (05 R123, R125), and the secondary channel's entry, count and result word where a TWIN pair
differs (03 R81). -/
structure LkRes where
  home : BitVec 2 := 0
  hit : Bool := false
  multi : Bool := false
  suspect : Bool := false
  part : Bool := false
  prio : BitVec 16 := 0
  dev : BitVec 3 := 0
  chan : BitVec 2 := 0
  partition : BitVec 6 := 0
  count : Nat := 0
  entry : Nat := 0
  ad : List Word := []
  adPois : List Bool := []
  prioPois : Bool := false
  sec : Option (Nat × Nat × Word) := none
  deriving DecidableEq, Repr

/-- Origin's data of a cascaded search: ring slot, f, D, missing set at f, direction (07 R173, R175, R183). -/
structure CascO where
  slot : BitVec 9
  f : Nat
  d : Nat
  missing : Byte
  east : Bool
  deriving DecidableEq, Repr

/-- Member's data of a search it serves for an origin (07 R174). -/
structure CascM where
  origin : BitVec 3
  slot : BitVec 9
  east : Bool
  deriving DecidableEq, Repr

/-- Where a search stands (01 "The path of a search"); the number is the CCLK the stage ends or began in. -/
inductive Stage where
  /-- HSRCH waiting for its handover in CCLK `due` (04 R89). -/
  | snippet (due : Nat)
  /-- In the key builder until CCLK `due` (04 R89). -/
  | walk (due : Nat)
  /-- Offered to admission from CCLK `due` (01 R20). -/
  | offer (due : Nat)
  /-- Held G-class search (01 R20). -/
  | gHeld
  /-- In the hold queue; its hold limit counts from `since` (11 R266). -/
  | hold (since : Nat)
  /-- In the channel pipeline, admitted in CCLK `adm` (02 R47). -/
  | pipe (adm : Nat)
  /-- Results delivered in CCLK `del`, waiting for its ring cell (07 R174, R175). -/
  | cell (del : Nat)
  /-- In the stream lane since the results were delivered in CCLK `del` (09 R208). -/
  | lane (del : Nat)
  deriving DecidableEq, Repr

/-- The entry of gate list `list` that a search found in force at its check, before the list changed (09 R221): its SRAM word, as stored,
and whether a parity error of its valid bit covered it (13 R314); a list that was disabled is not `on`. -/
structure GateKept where
  list : Nat
  on : Bool
  word : Nat := 0
  stored : Option SWord := none
  bad : Bool := false
  deriving DecidableEq, Repr

/-- A search in flight: its tag context (05 R127). `tChk` is the ingress timestamp, `phase` the sample of 04 R109, `failAt` the layer that
ended the walk and its start byte (04 R113), `handle` and `verdict` those of its stream lane (09 R208), `gates` what gate lists changed
since its check held at that CCLK (09 R221), `acts` the blocks it activates (02 R53; lookup, channel and block position as one number),
`cfg` the configuration of each lookup's partition at admission (03 R63), `blks` the blocks these partitions had then, `heldSeq` its place
among those that entered the hold queue, `given` false while a search offered to a REPLICA group has no member yet (03 R77), `cmp` what it
compared in its compare cycle (02 R37), `ctxBad` a poisoned tag context (13 Table 13.4). -/
structure Srch where
  cmd : Cmd
  tChk : Nat
  phase : Reg := 0
  prof : Prof
  ch : Chn
  cls : BitVec 2
  ord : Bool := false
  key : Key := 0
  cause : BitVec 4 := 0
  failAt : Nat × Nat := (0, 0)
  desc : Word := 0
  bytes : List Byte := []
  pcls : Reg := 0
  held : Option (BitVec 15) := none
  fromBuf : Option (BitVec 15) := none
  stampIn : Byte := 0
  stamp : Byte := 0
  negs : List Bool := []
  org : Option CascO := none
  mem : Option CascM := none
  stage : Stage
  cfg : List Word := []
  blks : List (Nat × Nat) := []
  acts : Option (List Nat) := none
  cmp : Option (List LkRes) := none
  handle : Option Nat := none
  verdict : Option Word := none
  gates : List GateKept := []
  heldSeq : Nat := 0
  given : Bool := true
  ctxBad : Bool := false
  deriving DecidableEq, Repr

/-- State of a partition's negatives (06 Table 6.9). -/
inductive NegSt where
  | steady | opened | pend | fixing | washing
  deriving DecidableEq, Repr

/-- The dynamic state of a partition: live negative (false = A), state, the CCLKs of its last two commits and of its fix end
(06 R158, R160), whether the wash is an abort wash, the NEG_ABORT that waits for it, and the allocator class of each logical
block (06 R144: absent EMPTY, 0-255 VALUE, 256 WIDE). -/
structure Part where
  live : Bool := false
  st : NegSt := .steady
  last : Option Nat := none
  prev : Option Nat := none
  fixEnd : Nat := 0
  abort : Bool := false
  cmd : Option Cmd := none
  cls : List (Nat × Nat) := []
  deriving DecidableEq, Repr

/-- A phase commit that waits (06 R156): partition mask, generator, target phase, the T of its crossing, its command. -/
structure Pend where
  mask : Word
  cyg : Nat
  target : Reg
  tDue : Nat
  cmd : Cmd
  deriving DecidableEq, Repr

/-- Past use of a stamp value: the CCLK it stopped being current, and the last CCLK a reply carrying it left (06 R160, R161). -/
structure StampRec where
  stop : Nat
  used : Nat
  deriving DecidableEq, Repr

/-- One write step (06 R146): create or rewrite an entry whole, change planes, priority or associated data in place, change
membership, read an entry and leave it old-only (06 R149), invalidate, read, or write one row raw (13 R325). Priority and associated data
of a new entry are stored values: a copy takes over poisoned ones. -/
inductive WStep where
  | create (p : Nat) (e : Nat) (d m : BitVec 640) (prio : SWord) (ad : List SWord) (inA inB : Bool)
  | planes (p : Nat) (e : Nat) (d m : BitVec 640) (prio : BitVec 16) (ad : Option (List Word))
  | setPrio (p : Nat) (e : Nat) (prio : BitVec 16)
  | setAd (p : Nat) (e : Nat) (first : Nat) (ad : List Word)
  | member (p : Nat) (e : Nat) (inA inB : Bool)
  | leave (p : Nat) (e : Nat) (inA inB : Bool)
  | kill (p : Nat) (e : Nat)
  | look (p : Nat) (e : Nat)
  | readEnt (p : Nat) (e : Nat)
  | readAd (p : Nat) (e : Nat)
  | raw (p : Nat) (e : Nat) (seg : Nat) (row : Row)
  deriving DecidableEq, Repr

/-- The command an update unit is running: steps left, entry and flags of its reply (06 R139). -/
structure Job where
  cmd : Cmd
  steps : List WStep
  entry : Nat
  copied : Bool := false
  absent : Bool := false
  deriving DecidableEq, Repr

/-- The rotation of an arbiter (01 R444), the rotation that holds after CCLK `c` when sources competed in it, and the sources of CCLK
`out.1` whose commands found no place. -/
structure Rota where
  rot : Nat := 0
  cont : Option (Nat × Nat) := none
  out : Nat × List Nat := (0, [])
  deriving DecidableEq, Repr

/-- A unit that takes one command per CCLK from its queue (15 R373): the queue, the first CCLK in which it takes a command, the rotation of
the queue's arbiter. -/
structure UnitQ where
  queue : List Cmd := []
  free : Nat := 0
  arb : Rota := {}
  deriving DecidableEq, Repr

/-- Update unit of a channel or group (06 R146): command queue, running job, first CCLK in which a command may be taken and in which a
step may be made, the rotation of its arbiter (01 R444). -/
structure Upd where
  queue : List Cmd := []
  job : Option Job := none
  takeAt : Nat := 0
  nextAt : Nat := 0
  arb : Rota := {}
  deriving DecidableEq, Repr

/-- Channel power state, encoded as in 11 Table 11.6. -/
inductive PwrSt where
  | active | safelight | dim | darkroom
  deriving DecidableEq, Repr

/-- Power of a channel (11 R273): state, entry under way (target, end, cause), wake under way (state left, end, cause), the idle
timer (CCLK from which it runs, CCLK counted before, whether something holds the channel awake), "at once" after CH_STATE, the
windows open, the cause of a wake that waits for the end of an entry, and the CCLK up to which a slow-path search holds the channel awake
(04 R112). -/
structure Pwr where
  st : PwrSt := .active
  entering : Option (PwrSt × Nat × Nat) := none
  waking : Option (PwrSt × Nat × Nat) := none
  since : Nat := 0
  idle : Nat := 0
  held : Bool := false
  atOnce : Bool := false
  open4 : BitVec 4 := 0
  demand : Option Nat := none
  awake : Nat := 0
  deriving DecidableEq, Repr

/-- Counts of the 1,024-CCLK window `no` (11 R271, R282). -/
structure Window where
  no : Nat := 0
  gAdm : Nat := 0
  scrub : Nat := 0
  proof : Nat := 0
  rebuild : Nat := 0
  bubble : Nat := 0
  deriving DecidableEq, Repr

/-- A proof or calibration pass on a physical block (13 R330, R334): kind, phase of Table 13.11, row operations done in the
phase, whether the block holds rows, the phase that failed, and whether searches are redirected. -/
structure ProofRun where
  cal : Bool
  blk : Nat
  phase : Nat
  op : Nat
  rows : Bool
  failed : Option Nat := none
  redirected : Bool := false
  deriving DecidableEq, Repr

/-- A block repair under way (13 R338): the block position repaired (65: the proof spare), the CCLK the copy started in, whether the
block was held. -/
structure RepairRun where
  pos : Nat
  start : Nat
  wasHeld : Bool
  deriving DecidableEq, Repr

/-- A CH_LOCK copy (03 R85): its command and the CCLK it was accepted in. -/
structure LockCopy where
  cmd : Cmd
  start : Nat
  deriving DecidableEq, Repr

/-- A row under scrub correction (13 R322): physical block, row, CCLK of the scrub read. -/
structure Corr where
  blk : Nat
  row : Nat
  since : Nat
  deriving DecidableEq, Repr

/-- One search channel: its array and memories (`rows` keyed by physical block x 8,192 + row, `adm` by logical row position, `prio` and
`sheet` by word of four values of 16 bits, counter `v` of block `b` being value b x 256 + v; `rebuildRow` is the next row that the rebuild
of the block at the head of `rebuild` reads, `rebuildAsked` the blocks still to come of a commanded rebuild; `admBad`, `prioBad` and
`sheetBad` list the words that a parity error of the valid-bit array makes read as poisoned (13 R314); `pendDec` and `incs` are the
decrements to come after a write step and the increments before one, `adWas` the associated-data words that an AD_WR replaced in the last
CCLK, `cmps` the recent compare cycles of block positions, `openFrom` the CCLK from which a resumed group admits, 17 R417), block map,
negatives and stamps, update unit, admission stage, service and power state, background work. For a locked group the lead channel's fields
hold the group's values. -/
structure Chan where
  rows : List (Nat × Row) := []
  adm : Sram := []
  prio : Sram := []
  sheet : Sram := []
  admBad : List Nat := []
  prioBad : List Nat := []
  sheetBad : List Nat := []
  pendDec : List (Nat × Nat × List Nat) := []
  incs : List (Nat × Nat × List Nat) := []
  adWas : List (Nat × Nat × Option SWord) := []
  cmps : List (Nat × Nat) := []
  owner : List (Nat × Nat × Nat) := []
  forced : List Nat := []
  rebuild : List Nat := []
  rebuildBusy : Bool := false
  rebuildAsked : List Nat := []
  rebuildRow : Nat := 0
  bad : List (Nat × Nat) := []
  corr : List Corr := []
  scrubAt : Nat := 0
  parts : List (Nat × Part) := []
  stamp : Byte := 0
  stamps : List (Nat × StampRec) := []
  pends : List Pend := []
  upd : Upd := {}
  rotAdm : Nat := 0
  lastAdm : Option Nat := none
  admNext : Nat := 0
  bubbleAt : Option Nat := none
  replicaNext : Nat := 0
  rotGive : Nat := 0
  copy : Option LockCopy := none
  ready : Bool := false
  quiesced : Bool := false
  openFrom : Nat := 0
  draining : Bool := false
  resetting : Option Cmd := none
  resetDone : Bool := false
  pwr : Pwr := {}
  win : Window := {}
  proof : Option ProofRun := none
  heldBlk : Option Nat := none
  rot : Nat := 0
  lastBlk : Option Nat := none
  trims : List (Nat × Nat) := []
  repaired : Option Nat := none
  repair : Option RepairRun := none
  nextAuto : Nat := 0
  deriving DecidableEq, Repr

/-- Part constants, measured or fixed for one part (01 Table 1.12, 02 Table 2.12, 11 Table 11.10, 18 Table 18.13). -/
structure PartK where
  grade : Grade
  blockEu : Vector (BitVec 12) 4
  rowEu : Byte
  vidFused : Fin 29
  deriving DecidableEq, Repr

/-- The code `vid_fused`, 0 to 28 (18 R427, Table 18.13). -/
def PartK.vid (k : PartK) : BitVec 5 := BitVec.ofNat 5 k.vidFused.val

/-- What the part drives or reads on its slow pins that no register shows (18 Table 18.3): latched SMBus address, RESET_N and
PWR_GOOD as read, VID[4:0] (none = high-impedance, VDDIO off), THERM_N, ALIVE_N and SMB_ALERT_N low, ARR_RET high, the level of FACTORY_N.
Log 2 (DESIGN CHOICE). -/
structure Pins where
  smbAddr : BitVec 2
  pwrGood : Bool
  resetN : Bool
  vid : Option (BitVec 5)
  thermLow : Bool
  aliveLow : Bool
  alertLow : Bool
  arrRet : Bool
  factoryN : Bool
  deriving DecidableEq, Repr

/-- Device state (01 Table 1.8, 17 R406): `held` in reset, `startup` until the image is developed, `run`, `darkroom`, `waking`
between a wake source and RUN, `shutdown` (11 R272). -/
inductive DevSt where
  | held | startup | run | darkroom | waking | shutdown
  deriving DecidableEq, Repr

/-- Device control (17 R419, 11 R279, R280); `late` are the commands that came while the part waits to enter device DARKROOM, `echoes` the
ECHO commands whose replies lack slots (14 R347), `unstarted` tells that PWR_GOOD has risen and the core has been held in reset since (17
R406), `vidAt` the CCLK from which the VID code may move again (18 R427). -/
structure Dev where
  st : DevSt
  devId : BitVec 3
  cause : BitVec 3
  tablesKept : Bool
  factoryStrap : Bool
  developed : Bool
  darkReq : Option Cmd
  wakeSrc : BitVec 4
  hot : BitVec 3
  level : BitVec 2
  temps : List (BitVec 16)
  late : List Cmd := []
  echoes : List Cmd := []
  unstarted : Bool := false
  vidAt : Nat := 0
  deriving DecidableEq, Repr

/-- One record of the error log (13 Table 13.7). -/
structure LogRec where
  w0 : Word
  w1 : Word
  deriving DecidableEq, Repr

/-- The error log, a ring of 256 records (13 R326). -/
structure Log where
  recs : List (Nat × LogRec) := []
  head : Nat := 0
  ovr : Nat := 0
  deriving DecidableEq, Repr

/-- A latent image (17 R408, R409): generation, firmware version and slot, Kept registers, error log, repair map (block position
of each channel's repair spare, remapped 1 KiB rows), versions of the two slots. Log 13 (DESIGN CHOICE). -/
structure Image where
  gen : Nat
  fwVersion : BitVec 16
  fwSlot : Bool
  regs : List (Nat × Reg)
  log : Log
  blocks : List (Option Nat)
  remaps : List (Nat × Nat)
  ver : BitVec 16 × BitVec 16
  deriving DecidableEq, Repr

/-- The always-on domain (17 Table 17.2): image buffers, proposal id counter, coarse time in units of 2^-32 ns, whether it was
loaded from T since VDD_AON came up (08 R199), `shut`. -/
structure Aon where
  img0 : Option Image := none
  img1 : Option Image := none
  nextProp : BitVec 16 := 1
  coarse : Nat := 0
  cLoaded : Bool := false
  shut : Bool := false
  deriving DecidableEq, Repr

/-- A TIME_SET with at_pps = 1 that waits (08 R196): command, value, the T of its 1.1 s limit, which moves with T at a discontinuity. -/
structure SetPend where
  cmd : Cmd
  value : Nat
  limit : Int
  deriving DecidableEq, Repr

/-- Last discontinuity of a generator (08 R203; 09 R225): its CCLK, the T of the CCLK before, the T it replaced and the T of that CCLK. -/
structure Disc where
  at_ : Nat
  prev : Nat
  t0 : Nat
  t1 : Nat
  deriving DecidableEq, Repr

/-- T from a CCLK on in which its rate, its slew or T itself was set: the CCLK, T in it, its advance per CCLK, and the slew then left. -/
structure TLine where
  at_ : Nat
  t : Nat
  inc : Nat
  left : Int
  deriving DecidableEq, Repr

/-- The time base (08 R187-R199): T in units of 2^-32 ns, whether it waits for the LFCLK edge that starts it (R199), slew_left in the
same units, flags, PPS capture (T of the last valid edge, T from which a loss counts; both move with T at a discontinuity and may then lie
before 0), per-master snapshots, the last discontinuity of each generator, the T at which a running PPS_OUT pulse ends, and how far T moved
by its advance in the present CCLK (1 in the CCLK of a discontinuity of the PPS_OUT source, 08 R197), and how T has run of late, the present
line first. -/
structure TimeBase where
  t : Nat := 0
  wait : Bool := true
  slewLeft : Int := 0
  unset : Bool := false
  coarse : Bool := false
  setPend : Option SetPend := none
  lastPps : Option Int := none
  ppsRef : Int := 0
  ppsLost : Bool := false
  cap : Nat := 0
  ppsSeq : Byte := 0
  snap : List (Nat × Nat) := []
  disc : List (Nat × Disc) := []
  ppsOutEnd : Option Nat := none
  moved : Nat := 0
  lines : List TLine := []
  deriving DecidableEq, Repr

/-- An event as staged (10 Tables 10.4, 10.5): type, source, words 1 to 4 and the T of its staging. -/
structure Event where
  type : Byte
  source : BitVec 18
  w1 : Word := 0
  w2 : Word := 0
  w3 : Word := 0
  w4 : Word := 0
  t : Nat := 0
  deriving DecidableEq, Repr

/-- A staged event: queue, CCLK of staging, place of its producer in the order of 10 R245, CCLKs in which its queue lacked
room. -/
structure Staged where
  ev : Event
  q : BitVec 18
  at_ : Nat
  rank : Nat := 0
  tries : Nat := 0
  deriving DecidableEq, Repr

/-- An event on its way to the spillway with its reason (10 Table 10.9). -/
structure SpillItem where
  ev : Event
  q : BitVec 18
  reason : BitVec 2
  at_ : Nat
  deriving DecidableEq, Repr

/-- Descriptor, pointers and state of a queue (10 Tables 10.1, 10.3), the access point that sent its Q_CFG (10 R253), and the words
committed in CCLK `cAt` and taken in CCLK `pAt` (10 R243, R244); `bad` tells that its stored descriptor is poisoned (13 Table 13.4). -/
structure QDesc where
  enable : Bool := true
  work : Bool := false
  k : Nat := 2
  items : BitVec 3 := 1
  base : Nat
  cls : Nat := 0
  slEn : Bool := false
  sluice : Nat := 0
  replyQ : BitVec 18 := 0
  wr : Nat := 0
  rd : Nat := 0
  rdLeft : Nat := 0
  spilled : Bool := false
  high : Bool := false
  ap : Ap := 0
  cAt : Nat := 0
  cN : Nat := 0
  pAt : Nat := 0
  pN : Nat := 0
  bad : Bool := false
  deriving DecidableEq, Repr

/-- A Q_PUSH held for room (10 R251). -/
structure HeldPush where
  cmd : Cmd
  q : BitVec 18
  item : List Word
  due : Nat
  deriving DecidableEq, Repr

/-- A Q_CFG range in progress (10 R238): next queue, last queue, base of the next. -/
structure RangeJob where
  cmd : Cmd
  next : Nat
  last : Nat
  desc : QDesc
  step : Nat
  deriving DecidableEq, Repr

/-- State of a spillway bank (10 R257). -/
inductive BankSt where
  | empty | fill | ready
  deriving DecidableEq, Repr

/-- A spillway bank: state, words written, words taken. -/
structure Bank where
  st : BankSt
  words : Nat := 0
  taken : Nat := 0
  deriving DecidableEq, Repr

/-- The queue manager and spillway (10): descriptors that differ from the default, event staging store, events that will be offered to it
in a later CCLK, spillway staging store, banks, events dropped since the last record, first CCLKs in which the two write ports are free,
held pushes, running range job, the unit's command queue, the queues touched in CCLK `touchAt` (each with whether it was empty at its
start) that are not yet evaluated (10 R244), work queues with an item at the head (the T from which a phase crossing counts, none once one
has happened at a discontinuity), the CCLK from which the next item of a work queue and of any may be released, replies of released
commands. -/
structure Qm where
  desc : List (Nat × QDesc) := []
  staged : List Staged := []
  soon : List Staged := []
  spill : List SpillItem := []
  bankA : Bank := ⟨.fill, 0, 0⟩
  bankB : Bank := ⟨.empty, 0, 0⟩
  dropped : Nat := 0
  evFree : Nat := 0
  spwFree : Nat := 0
  held : List HeldPush := []
  range : Option RangeJob := none
  unit : UnitQ := {}
  touchAt : Nat := 0
  touched : List (Nat × Bool) := []
  heads : List (Nat × Option Nat) := []
  relAt : List (Nat × Nat) := []
  relAny : Nat := 0
  done : List (BitVec 18 × Reply) := []
  deriving DecidableEq, Repr

/-- The exposure scheduler (11 R263-R267): balance, the balance before the last CCLK added (R265), remainders of the two statistics in EU,
deficit flag, non-array estimate, effective budget, the CCLK up to which refills have been added, and the debits to come, each with its
CCLK. -/
structure Xpo where
  bal : Int := 2400000
  was : Int := 2400000
  expRem : Nat := 0
  ovrRem : Nat := 0
  deficit : Bool := false
  otherMw : Nat := 0
  effMw : Nat := 0
  refAt : Nat := 0
  debits : List (Nat × Nat) := []
  deriving DecidableEq, Repr

/-- Tag of a snippet buffer (12 Table 12.7); `walks` of its references are those of walks in the key builder (12 R306). -/
structure BufTag where
  count : Nat := 0
  walks : Nat := 0
  holders : BitVec 16 := 0
  len : Nat := 0
  chained : Bool := false
  next : BitVec 15 := 0
  head : Bool := false
  deriving DecidableEq, Repr

/-- A free list of the pool (12 R301): head, tail and number of its buffers, threaded through their first words. -/
structure FreeList where
  head : Nat
  tail : Nat
  n : Nat
  deriving DecidableEq, Repr

/-- The snippet buffer pool (12 R300-R309): tags of the buffers in use, the two free lists, `rebuild`, its
command queue, the HSRCH commands that ask for a buffer in this CCLK, the rotation of its allocations (12 R302), and the buffers freed in
CCLK `freedAt`, which are not allocated in that CCLK (12 R307). -/
structure Pool where
  tags : List (Nat × BufTag) := []
  lo : FreeList := ⟨0, 16383, 16384⟩
  hi : FreeList := ⟨16384, 32767, 16384⟩
  rebuild : Bool := false
  unit : UnitQ := {}
  asks : List Cmd := []
  arb : Rota := {}
  freedAt : Nat := 0
  freedLo : Nat := 0
  freedHi : Nat := 0
  deriving DecidableEq, Repr

/-- Ends of the busy pulses on MBXBSY_A_N and MBXBSY_B_N (12 R299), in CCLK, and the rotation of each side's grants (12 R297). -/
structure Mbx where
  busyA : Option Nat := none
  busyB : Option Nat := none
  rotA : Nat := 0
  rotB : Nat := 0
  deriving DecidableEq, Repr

/-- State of a port group (14 Table 14.5). -/
inductive PgSt where
  | down | train | up | drain | lpi
  deriving DecidableEq, Repr

/-- One port group (14 R343-R354): state, lane findings, equalisation in use, next transmit slot, sequence numbers, heartbeats, cumulative
credits and counts, replay buffer, pending nak, words of a packet received in part and whether it was begun beyond the command credit,
resynchronisation, resend episodes, times of the last acknowledgement and heartbeat, the reply store's egress times (05 R131), the command
id below which replies are discarded (R351), T-mode in use, mode and equalisation taken with `retrain` (R354) and the CCLK of that write,
words that a packet lost in part still had to come and the number of the first flit missing, and whether flits accepted since belong to
another lost packet (R350), flit credit granted, the CCLK from which a credit hold-off counts (05 R130), and the flits sent. -/
structure Pg where
  st : PgSt := .down
  pol : BitVec 4 := 0
  laneRev : Bool := false
  eqUse : Option Reg := none
  slot : Nat := 0
  txSeq : BitVec 12 := 0
  rxSeq : BitVec 12 := 0
  hb : BitVec 16 := 0
  hostCrd : BitVec 16 := 0
  txNum : BitVec 16 := 0
  rxNum : BitVec 16 := 0
  cmdGrant : BitVec 16 := 0
  cmdNum : BitVec 16 := 0
  replay : List Flit := []
  nakSend : Bool := false
  nakEpisode : Bool := false
  rx : List Word := []
  ovr : Bool := false
  resync : Bool := false
  episodes : Nat := 0
  ackAt : Nat := 0
  hbAt : Nat := 0
  txFree : Nat := 0
  lastOrd : Option Nat := none
  discardTo : Nat := 0
  tmode : Bool := false
  next : Option (Bool × Reg) := none
  drainAt : Nat := 0
  lost : Option (Nat × BitVec 12) := none
  another : Bool := false
  flitGrant : BitVec 16 := 0
  holdAt : Option Nat := none
  out : List Flit := []
  deriving DecidableEq, Repr

/-- Ring state (07 Table 7.2). -/
inductive RingSt where
  | off | forming | formed | wrapped | joining
  deriving DecidableEq, Repr

/-- A cell on the ring: key, result, or control with its type, sender and content (07, 14 R357). -/
inductive Cell where
  | key (c : KeyCell)
  | result (c : ResultCell)
  | control (type : Byte) (dev : BitVec 3) (content : List Byte)
  deriving DecidableEq, Repr

/-- One cascade port (14 R353-R356): state, polarity, next frame number expected, bytes of a cell received in part with its kind and
whether they may be filler, wrapped, the fence under way on the ring of its side and the live set that fence has met (07 R184), the CCLK
it last heard a frame or a cell in (07 R181), the CCLK it trained in, its next frame slot, bytes of a cell sent in part, and the frames
sent. -/
structure CascPort where
  st : PgSt := .down
  pol : Byte := 0
  rxSeq : Byte := 0
  carry : List Byte := []
  carryKey : Bool := false
  carryMaybe : Bool := false
  resync : Bool := true
  wrapped : Bool := false
  fence : Bool := false
  eqUse : Option Reg := none
  heard : Byte := 0
  heardAt : Nat := 0
  upAt : Nat := 0
  slot : Nat := 0
  left : List Byte := []
  heldFrame : Option Frame := none
  sent : List Frame := []
  deriving DecidableEq, Repr

/-- The cascade ring (07): state, live members, hops, direction of the next search, geometry of every member's cascaded profiles,
cells to send with their direction, this part's own new cells that wait behind them (07 R178), members known to be absent (07 R169, R170),
result cells come back to the origin, result cells waiting for this member's results, refusals of
this member, the profile of each origin's ring slots as their key cells gave it, and the key cells that will pass a second time: origin and
slot, direction and CCLK of the first passage. -/
structure Ring where
  st : RingSt := .off
  live : Byte := 0
  hops : Nat := 0
  formAt : Nat := 0
  eastNext : Bool := true
  east : CascPort := {}
  west : CascPort := {}
  geo : List (Nat × Geometry) := []
  tx : List (Bool × Cell) := []
  fresh : List (Bool × Cell) := []
  absent : Byte := 0
  back : List ResultCell := []
  wait : List (Bool × ResultCell) := []
  refuse : List (BitVec 3 × BitVec 9 × BitVec 3) := []
  slots : List (Nat × Nat) := []
  seen : List (Nat × Bool × Nat) := []
  deriving DecidableEq, Repr

/-- The PCIe function (14 R359-R363): link, ring indices and phase, commands fetched and not answered, completion words written, MSI-X
mask and PBA, sources requesting, vectors of the messages sent, address and data of each table entry and of each message sent, markers
since the last message and the CCLK of the oldest, read data returned, and the queue classes and the spillway that have requested since
their pending bit was set (R362). -/
structure Pcie where
  up : Bool := false
  speed : BitVec 3 := 0
  width : BitVec 2 := 0
  sqHead : Nat := 0
  sqTail : Nat := 0
  cqHead : Nat := 0
  cqW : Nat := 0
  phase : Bool := true
  owed : Nat := 0
  fetchErr : Bool := false
  discardTo : Nat := 0
  cq : List (Nat × Word) := []
  mask : BitVec 64 := BitVec.allOnes 64
  pba : BitVec 64 := 0
  reqs : List Nat := []
  markers : Nat := 0
  oldest : Option Nat := none
  msgs : List (BitVec 6) := []
  vecs : List (Nat × Word × Reg) := []
  sent : List (Word × Reg) := []
  rdata : List Word := []
  asked : BitVec 17 := 0
  deriving DecidableEq, Repr

/-- Why a firmware command is parked (15 R374). -/
inductive Wait where
  | quiesce (ch : Chn) | darkroom | timeSet | lock (ch : Chn) | save | flash | chReset (ch : Chn)
  deriving DecidableEq, Repr

/-- A parked firmware command (15 R374). -/
structure Park where
  cmd : Cmd
  why : Wait
  deriving DecidableEq, Repr

/-- The Ralem firmware (15 R373, R374; 17 R412-R415): running, load attempt (0 active slot, 1 other slot), the CCLK by which an image
loaded and not yet started must start, command queue with its arbiter's rotation, parked commands, slot facts, switch applied and waiting,
end of the time in which the firmware of a switch must start. -/
structure Fw where
  up : Bool := false
  load : Option Nat := none
  startBy : Option Nat := none
  queue : List Cmd := []
  arb : Rota := {}
  parked : List Park := []
  active : Bool := false
  standbyOk : Bool := false
  bootSrc : BitVec 2 := 0
  switchFailed : Bool := false
  ver0 : BitVec 16 := 0
  ver1 : BitVec 16 := 0
  switchWait : Bool := false
  switchRun : Option Nat := none
  deriving DecidableEq, Repr

/-- An outstanding proposal (16 R396): id, authority (1 = A, 2 = B), digest, change set, the CCLK its window ends in. -/
structure Proposal where
  id : BitVec 16
  auth : BitVec 2
  digest : Reg
  words : List Word
  until_ : Nat
  deriving DecidableEq, Repr

/-- Protection (16 R396-R401): the outstanding proposals, and those whose window has ended, which a late countersign still names. -/
structure Prot where
  props : List Proposal := []
  ended : List Proposal := []
  lastId : BitVec 16 := 0
  lastDigest : Reg := 0
  deriving DecidableEq, Repr

/-- Who waits for an image save (17 R409): a command's reply, a repair's REPAIR_DONE event, the boundary-scan access (16 R394), or
nobody. -/
inductive SaveFor where
  | reply (c : Cmd)
  | repair (e : Event)
  | scan
  | nobody
  deriving DecidableEq, Repr

/-- An image save: who waits, the content taken in the CCLK it started (none: not started), and the buffer it writes. -/
structure Save where
  who : SaveFor
  img : Option Image := none
  buf : Bool := false
  deriving DecidableEq, Repr

/-- An SRAM proof pass (13 R336): page range, page lent, interrupted attempts on it, pages skipped, pages that failed. -/
structure SramProof where
  first : Nat
  last : Nat
  page : Nat
  attempts : Nat := 0
  skipped : Nat := 0
  failed : Bool := false
  deriving DecidableEq, Repr

/-- A 1 KiB row to be remapped (13 R337): the REPAIR command that waits for it, the number n of its PROOF_REMAP_USEDn, the row, the
locator. -/
structure RemapRun where
  cmd : Option Cmd
  mem : Nat
  row : Nat
  loc : Nat
  deriving DecidableEq, Repr

/-- The SMBus target and the TAP (18 R434-R437): the last SMBus answer and its PEC, the TAP instruction, the boundary-scan register (cell
i from TDI on in bit i) and the MGMT_ACC register. -/
structure Service where
  smb : List Byte := []
  pec : Byte := 0
  bsr : BitVec 320 := 0
  ir : Byte := 1
  done : Bool := false
  status : Byte := 0
  rdata : Reg := 0
  deriving DecidableEq, Repr

/-- An access that waits for a bank group or a lent page (11 R281, 13 R336): group, CCLK it completes in, command. -/
structure BgWait where
  g : Nat
  due : Nat
  cmd : Option Cmd
  deriving DecidableEq, Repr

/-- The whole state of the block. -/
structure State where
  /-- Commands that wait, first in, first out. -/
  pending : List Instr := []
  /-- Free values drawn: the model's own counter (notes/assumptions/3.md). -/
  free : Nat := 0
  /-- Part constants (00 R2, 02 R53, 11 R285, 18 R441). -/
  part : PartK
  /-- Slow pins that no register shows (18 Table 18.3). -/
  pins : Pins
  /-- Device control (17 R419, 11 R272, R279). -/
  dev : Dev
  /-- The always-on domain (17 Table 17.2). -/
  aon : Aon := {}
  /-- CCLK since the core domain started (09 R230). -/
  cclk : Nat := 0
  /-- Order of checks (15 R373). -/
  nextId : Nat := 0
  /-- The time base (08). -/
  tb : TimeBase := {}
  /-- Registers that differ from their Factory value, by address (00 R7). -/
  regs : List (Nat × Reg) := []
  /-- Anomaly counters with SAT, by address (00 R10). -/
  cnt : List (Nat × Reg) := []
  /-- Statistics counters, by address (00 R9). -/
  stat : List (Nat × Word) := []
  /-- High halves of 64-bit counters taken per master (01 R30). -/
  shadow : List (Nat × Reg) := []
  /-- Profiles and partitions whose configuration word is poisoned in both copies (13 Table 13.4). -/
  cfgBad : List Nat := []
  /-- For each port class, the CCLK of its last write and its value before that CCLK (04 R98). -/
  pclsWas : List (Nat × Nat × Reg) := []
  /-- Template registers written lately: address, CCLK of the write and value before it (04 R103). -/
  tplWas : List (Nat × Nat × Reg) := []
  /-- The search channels. -/
  ch : Vector Chan 4
  /-- Searches in flight (05 R127). -/
  searches : List Srch := []
  /-- Replies that have not left (05 R129). -/
  replies : List Reply := []
  /-- The SRAM address space (12 R286). -/
  sram : Sram := []
  /-- Words that a parity error of the valid-bit array makes read as poisoned (13 R314). -/
  vbad : List Nat := []
  /-- Poisoned words already reported (13 R316). -/
  poisonSeen : List Nat := []
  /-- Commands that wait for a lent page (13 R336). -/
  lentWait : List Cmd := []
  /-- Bank groups that are not ON, with their mode (11 R281). -/
  bgCur : List (Nat × Nat) := []
  /-- Accesses that wait for a bank group or a page (11 R281, 13 R336). -/
  bgWait : List BgWait := []
  /-- The queue manager and the spillway (10). -/
  qm : Qm := {}
  /-- The exposure scheduler (11). -/
  xpo : Xpo := {}
  /-- Slot C of the stream engine and its command queue (09 R218). -/
  se : UnitQ := {}
  /-- Next handle of the watchdog sweep (09 R229). -/
  wdNext : Nat := 0
  /-- First CCLK of its next visit. -/
  wdAt : Nat := 0
  /-- The discontinuity each record has seen (09 R229). -/
  wdDisc : List (Nat × Nat) := []
  /-- Next handle of the background pass (09 R230). -/
  bgNext : Nat := 0
  /-- First CCLK of its next visit. -/
  bgAt : Nat := 0
  /-- Number of the pass (09 R230). -/
  bgPass : Nat := 1
  /-- The snippet buffer pool (12 R300). -/
  pool : Pool := {}
  /-- The mailbox busy pins (12 R299). -/
  mbx : Mbx := {}
  /-- The port groups (14). -/
  pg : Vector Pg 8
  /-- The cascade ring (07). -/
  ring : Ring := {}
  /-- The PCIe function (14 R359). -/
  pcie : Pcie := {}
  /-- The breach-test targets (14 R364). -/
  brx : Vector Brx 10
  /-- The firmware (15 R374, 17 R412). -/
  fw : Fw := {}
  /-- Protection (16). -/
  prot : Prot := {}
  /-- Image saves asked for (17 R409). -/
  saves : List Save := []
  /-- The error log (13 R326). -/
  log : Log := {}
  /-- Words to be rewritten corrected (13 R318). -/
  healQ : List Nat := []
  /-- The SRAM proof pass (13 R336). -/
  sramProof : Option SramProof := none
  /-- Rows remapped: memory number and row (13 R337). -/
  remaps : List (Nat × Nat) := []
  /-- Rows waiting to be remapped (13 R338). -/
  remapRun : List RemapRun := []
  /-- SMBus target and test access port (18 R434, R437). -/
  svc : Service := {}
  deriving DecidableEq, Repr

/-- How a command could stop the machine. No row of the table stops: every packet is answered, and every event acts or finds
nothing to act on. Log 94 (DEDUCED). -/
inductive Fault where
  /-- VDD_AON fell while another rail was up, which leaves the state undefined until the next power-on reset (18 R429). Raised by
  no command: the table has no such row. Safe. -/
  | supplyOrder
  deriving DecidableEq, Repr

/-- Why a command has no meaning. -/
inductive Refusal where
  /-- Raised by an arm of exec whose command has no meaning yet. Safe. -/
  | notModelled (mnemonic : String)
  deriving DecidableEq, Repr

/-- The part constants assumed at reset (notes/assumptions/1.md): grade -12I and the spec's typical measured values. -/
def PartK.typical : PartK := ⟨.g12, Vector.replicate 4 160, 6, 14⟩

/-- The machine right after a power-on reset whose PWR_GOOD has risen and RESET_N is released: the start of start-up (17 R406),
every domain cleared (17 Table 17.2). -/
def State.reset : State where
  part := PartK.typical
  pins := ⟨0, true, true, some 14, false, false, false, false, true⟩
  dev := { st := .startup, devId := 0, cause := 0, tablesKept := false, factoryStrap := false, developed := false, darkReq := none,
           wakeSrc := 0, hot := 0, level := 0, temps := List.replicate 6 0 }
  ch := Vector.replicate 4 {}
  pg := Vector.replicate 8 {}
  brx := Vector.replicate 10 {}

end Sys2Proof.Machine
end

