-- ==== Sys2Proof/Machine/Bits.lean ====
section
/-! DEFINITION. Bit fields, byte order, sparse tables and the CRC-32: the helpers every other file uses. -/

namespace Sys2Proof.Machine

/-- Bits `hi` to `lo` of a word as a number (00 Notation). -/
def fld {n : Nat} (w : BitVec n) (hi lo : Nat) : Nat := (w.toNat >>> lo) % 2 ^ (hi + 1 - lo)

/-- Bit `i` of a word. -/
def bitAt {n : Nat} (w : BitVec n) (i : Nat) : Bool := w.getLsbD i

/-- 1 for true. -/
def b2n (b : Bool) : Nat := if b then 1 else 0

/-- A word made of fields, each a value with its high and low bit; values are cut to their fields. -/
def pack (n : Nat) (fs : List (Nat × Nat × Nat)) : BitVec n :=
  BitVec.ofNat n (fs.foldl (fun acc f => acc + (f.1 % 2 ^ (f.2.1 + 1 - f.2.2)) * 2 ^ f.2.2) 0)

/-- `w` with the field from bit `hi` to bit `lo` set to `v`. -/
def putF {n : Nat} (w : BitVec n) (v hi lo : Nat) : BitVec n :=
  let m : BitVec n := BitVec.ofNat n ((2 ^ (hi + 1 - lo) - 1) * 2 ^ lo)
  (w &&& ~~~m) ||| (BitVec.ofNat n (v * 2 ^ lo) &&& m)

/-- `w` with bit `i` set or cleared. -/
def putB {n : Nat} (w : BitVec n) (i : Nat) (b : Bool) : BitVec n := putF w (b2n b) i i

/-- The bits from `hi` down to `lo`, set. -/
def ones {n : Nat} (hi lo : Nat) : BitVec n := BitVec.ofNat n ((2 ^ (hi + 1 - lo) - 1) * 2 ^ lo)

/-- The number a word stands for in two's complement. -/
def sgn {n : Nat} (w : BitVec n) : Int := w.toInt

/-- Numbers 0 to `n - 1` that satisfy `p`. -/
def below (n : Nat) (p : Nat → Bool) : List Nat := (List.range n).filter p

/-- The word whose bit `i` is `p i`, for bits below `k`. -/
def maskOf (n k : Nat) (p : Nat → Bool) : BitVec n :=
  BitVec.ofNat n ((List.range k).foldl (fun acc i => acc + b2n (p i) * 2 ^ i) 0)

/-- The numbers whose bits are set in `w`, ascending. -/
def bitsOf {n : Nat} (w : BitVec n) : List Nat := below n (fun i => w.getLsbD i)

/-! ### Sparse tables: lists of (key, value) pairs with strictly rising keys. -/

/-- The value at key `k`. -/
def mget {α : Type} : List (Nat × α) → Nat → Option α
  | [], _ => none
  | (k', v) :: t, k => if k' = k then some v else mget t k

/-- `m` with `k` mapped to `v`. -/
def mset {α : Type} : List (Nat × α) → Nat → α → List (Nat × α)
  | [], k, v => [(k, v)]
  | (k', v') :: t, k, v =>
    if k < k' then (k, v) :: (k', v') :: t
    else if k' = k then (k, v) :: t
    else (k', v') :: mset t k v

/-- `m` without key `k`. -/
def mdel {α : Type} : List (Nat × α) → Nat → List (Nat × α)
  | [], _ => []
  | (k', v) :: t, k => if k' = k then mdel t k else (k', v) :: mdel t k

/-- Keys strictly rising. -/
def mwf {α : Type} : List (Nat × α) → Bool
  | [] => true
  | [_] => true
  | (k, _) :: (k', v') :: t => decide (k < k') && mwf ((k', v') :: t)

/-- The value at `k`, or `d`. -/
def mgetD {α : Type} (m : List (Nat × α)) (k : Nat) (d : α) : α := (mget m k).getD d

/-! ### Lists used as arrays. -/

/-- Element `i`, or `d`. -/
def nth {α : Type} (l : List α) (i : Nat) (d : α) : α := l.getD i d

/-- Consecutive runs of `n` elements. `fuel` is at least the number of runs. -/
def chunks {α : Type} (n : Nat) : Nat → List α → List (List α)
  | 0, _ => []
  | _, [] => []
  | k + 1, l => l.take n :: chunks n k (l.drop n)

/-- `a ÷ b`, rounded up. -/
def cdiv (a b : Nat) : Nat := (a + b - 1) / b

/-! ### Bytes. -/

/-- Byte `i` of a word, byte 0 the most significant (15 R388: each word most significant byte first). -/
def byteBE (w : Word) (i : Nat) : Byte := BitVec.ofNat 8 (w.toNat >>> (56 - 8 * i))

/-- The eight bytes of a word, most significant first. -/
def wordBytes (w : Word) : List Byte := (List.range 8).map (byteBE w)

/-- The word whose bytes, most significant first, are the list's first eight; missing bytes are zero. -/
def bytesWord (l : List Byte) : Word :=
  BitVec.ofNat 64 ((List.range 8).foldl (fun acc i => acc * 256 + (nth l i 0).toNat) 0)

/-- Registers packed two to a word, the unused half of the last zero (15 R381). -/
def packRegs (l : List Reg) : List Word := (chunks 2 l.length l).map fun x => (nth x 0 0 ++ nth x 1 0 : BitVec 64)

/-- The big-endian number of a list of bytes. -/
def bytesNat (l : List Byte) : Nat := l.foldl (fun acc b => acc * 256 + b.toNat) 0

/-- `n` bytes of a number, most significant first. -/
def natBytes (n v : Nat) : List Byte := (List.range n).map (fun i => BitVec.ofNat 8 (v >>> (8 * (n - 1 - i))))

/-- One step of the IEEE 802.3 CRC-32 in its reflected form: eight shifts. -/
def crcShift : Nat → Reg → Reg
  | 0, c => c
  | k + 1, c => crcShift k (if c.getLsbD 0 then (c >>> 1) ^^^ 0xEDB88320 else c >>> 1)

/-- CRC-32 of the IEEE 802.3 frame check sequence over bytes in the order sent (14 R343, 15 R388). -/
def crc32 (l : List Byte) : Reg :=
  ~~~(l.foldl (fun c b => crcShift 8 (c ^^^ b.setWidth 32)) 0xFFFFFFFF)

end Sys2Proof.Machine
end

