-- ==== Sys2Proof/Machine/Ecc.lean ====
section
/-! DEFINITION. The check codes: the byte code of every SRAM word (13 R311-R313, R317) and the row code of the TCAM planes (13 R319). -/

namespace Sys2Proof.Machine

/-- State of a byte, word or plane (13 R312, R313). -/
inductive Health where
  | correct
  | correctable
  | poisoned
  deriving DecidableEq, Repr

/-- The worse of two states (13 R313: a word is as its worst byte). -/
def Health.worse : Health → Health → Health
  | .poisoned, _ => .poisoned
  | _, .poisoned => .poisoned
  | .correctable, _ => .correctable
  | _, .correctable => .correctable
  | .correct, .correct => .correct

/-- Check bits c3-c0 of a byte (13 Table 13.1). -/
def byteHamming (d : Byte) : BitVec 4 :=
  let b := fun i => d.getLsbD i
  pack 4 [(b2n (b 0 ^^ b 1 ^^ b 3 ^^ b 4 ^^ b 6), 0, 0), (b2n (b 0 ^^ b 2 ^^ b 3 ^^ b 5 ^^ b 6), 1, 1),
    (b2n (b 1 ^^ b 2 ^^ b 3 ^^ b 7), 2, 2), (b2n (b 4 ^^ b 5 ^^ b 6 ^^ b 7), 3, 3)]

/-- Parity of the bits of a word: true when their number is odd. -/
def parity {n : Nat} (w : BitVec n) : Bool := (List.range n).foldl (fun acc i => acc ^^ w.getLsbD i) false

/-- The five check bits of a byte, c4 the parity of data and c0-c3 (13 Table 13.1). -/
def byteCode (d : Byte) : BitVec 5 :=
  let h := byteHamming d
  pack 5 [(h.toNat, 3, 0), (b2n (parity d ^^ parity h), 4, 4)]

/-- The data bit at Hamming position `p` (13 R311: d0-d7 at 3, 5, 6, 7, 9, 10, 11, 12). -/
def bytePos (p : Nat) : Option Nat := [3, 5, 6, 7, 9, 10, 11, 12].idxOf? p

/-- Decode of a byte with its check bits (13 Table 13.2): the byte returned and its state. -/
def byteDecode (d : Byte) (c : BitVec 5) : Byte × Health :=
  let s := (byteHamming d).toNat ^^^ fld c 3 0
  let p := parity d ^^ parity c
  if s = 0 && !p then (d, .correct)
  else if p && decide (s ≤ 12) then
    (match bytePos s with | some i => d ^^^ BitVec.ofNat 8 (2 ^ i) | none => d, .correctable)
  else (d, .poisoned)

/-- Byte `i` of a word, byte 0 the least significant (13 Table 13.5). -/
def lane (w : Word) (i : Nat) : Byte := BitVec.ofNat 8 (w.toNat >>> (8 * i))

/-- Check bits of byte `i` of a word (13 Table 13.5). -/
def laneChk (c : BitVec 40) (i : Nat) : BitVec 5 := BitVec.ofNat 5 (c.toNat >>> (5 * i))

/-- A word from its eight bytes, byte 0 first. -/
def ofLanes (f : Nat → Byte) : Word :=
  BitVec.ofNat 64 ((List.range 8).foldl (fun acc i => acc + (f i).toNat * 2 ^ (8 * i)) 0)

/-- Check bits of a word from those of its bytes. -/
def ofChks (f : Nat → BitVec 5) : BitVec 40 :=
  BitVec.ofNat 40 ((List.range 8).foldl (fun acc i => acc + (f i).toNat * 2 ^ (5 * i)) 0)

/-- A word stored with fresh codes. -/
def encode (w : Word) : SWord := ⟨w, ofChks fun i => byteCode (lane w i)⟩

/-- A read of a stored word (13 R312, R313): the data with correctable bytes corrected, the state of the worst byte, and the mask of
poisoned bytes. -/
def decodeWord (w : SWord) : Word × Health × Byte :=
  let ds := fun i => byteDecode (lane w.data i) (laneChk w.chk i)
  (ofLanes fun i => (ds i).1,
   (List.range 8).foldl (fun h i => h.worse (ds i).2) .correct,
   maskOf 8 8 fun i => (ds i).2 == .poisoned)

/-- A word with the bytes of `be` written with fresh codes and the others as stored (13 R317); a word never written takes zero with
fresh codes in the bytes not enabled (13 R314). -/
def writeLanes (old : Option SWord) (be : Byte) (v : Word) : SWord :=
  let o := old.getD (encode 0)
  ⟨ofLanes fun i => if be.getLsbD i then lane v i else lane o.data i,
   ofChks fun i => if be.getLsbD i then byteCode (lane v i) else laneChk o.chk i⟩

/-- A word with its correctable bytes rewritten and its poisoned bytes as stored (13 R318, R338). -/
def healWord (w : SWord) : SWord :=
  let ds := fun i => byteDecode (lane w.data i) (laneChk w.chk i)
  ⟨ofLanes fun i => (ds i).1,
   ofChks fun i => if (ds i).2 = .correctable then byteCode (ds i).1 else laneChk w.chk i⟩

/-- A word whose every byte reads as poisoned. -/
def badWord : SWord := ⟨0, ofChks fun _ => 3⟩

/-- Word `i` of a memory; one of `bad`, whose valid bits are under a parity error, reads as poisoned (13 R314). Log 25 (DESIGN CHOICE). -/
def under (bad : List Nat) (m : Sram) (i : Nat) : Option SWord := if bad.contains i then some badWord else mget m i

/-- A stored word as it reads: one that was never written reads as zero, correct (13 R314).
Log 25 (DESIGN CHOICE). Log 89 (DESIGN CHOICE). -/
def readWord (x : Option SWord) : Word × Health × Byte :=
  match x with
  | none => (0, .correct, 0)
  | some w => decodeWord w

/-! ### Values of 16 bits, four to a word (13 R313; 01 Tables 1.5 and 1.6) -/

/-- Value `i` of a memory of 16-bit values in its word `x`, with the state of the word and the mask of its poisoned bytes. Log 99 (DESIGN
CHOICE). -/
def readHalf (x : Option SWord) (i : Nat) : BitVec 16 × Health × Byte :=
  let (v, h, mask) := readWord x
  (v.extractLsb' (16 * (i % 4)) 16, h, mask)

/-- The bytes of value `i` in its word. -/
def halfBe (i : Nat) : Byte := 3 <<< (2 * (i % 4))

/-- Writes value `i` with fresh codes; the other values of its word stay as stored (13 R317). Log 99 (DESIGN CHOICE). -/
def writeHalf (i : Nat) (v : BitVec 16) (m : Sram) : Sram :=
  mset m (i / 4) (writeLanes (mget m (i / 4)) (halfBe i) (v.setWidth 64 <<< (16 * (i % 4))))

/-- Value `i` as stored, data and check bits, in the lowest two bytes of a word. -/
def rawHalf (w : Option SWord) (i : Nat) : SWord :=
  let x := w.getD (encode 0)
  ⟨x.data >>> (16 * (i % 4)) &&& 0xFFFF, x.chk >>> (10 * (i % 4)) &&& 0x3FF⟩

/-- Stores value `i` as it is, with its check bits. -/
def putHalf (i : Nat) (x : SWord) (m : Sram) : Sram :=
  let o := (mget m (i / 4)).getD (encode 0)
  let d := 16 * (i % 4)
  let c := 10 * (i % 4)
  mset m (i / 4) ⟨putF o.data (x.data.toNat % 2 ^ 16) (d + 15) d, putF o.chk (x.chk.toNat % 2 ^ 10) (c + 9) c⟩

/-! ### TCAM rows -/

/-- Data bit positions of the row code: the positions from 3 up that are no power of two (13 R319, as Table 13.1 continued;
notes/assumptions/11.md). -/
def rowPositions : List Nat := (List.range 92).filter fun p => !([0, 1, 2, 4, 8, 16, 32, 64].contains p)

/-- Exclusive-or of the positions of the bits set: the seven Hamming check bits of up to 84 data bits. Log 11 (DEDUCED). -/
def rowHamming (n d : Nat) : Nat :=
  (rowPositions.take n).zipIdx.foldl (fun acc p => if d.testBit p.2 then acc ^^^ p.1 else acc) 0

/-- Check bits of `n` data bits: Hamming in [6:0], overall parity in [7]. -/
def rowCode (n d : Nat) : Byte :=
  let h := rowHamming n d
  pack 8 [(h, 6, 0), (b2n (parity (BitVec.ofNat n d) ^^ parity (BitVec.ofNat 7 h)), 7, 7)]

/-- Decode of `n` data bits with their check byte, as Table 13.2 extended to the width. -/
def rowDecode (n d : Nat) (c : Byte) : Nat × Health :=
  let s := rowHamming n d ^^^ fld c 6 0
  let p := parity (BitVec.ofNat n d) ^^ parity c
  if s = 0 && !p then (d, .correct)
  else if p then
    match (rowPositions.take n).idxOf? s with
    | some i => (d ^^^ 2 ^ i, .correctable)
    | none => if [0, 1, 2, 4, 8, 16, 32, 64].contains s then (d, .correctable) else (d, .poisoned)
  else (d, .poisoned)

/-- The 84 bits of the data plane: D with the four control bits above it. -/
def dataBits (r : Row) : Nat := r.d.toNat + r.ctl.toNat * 2 ^ 80

/-- A row with fresh codes. -/
def freshRow (d m : BitVec 80) (ctl : BitVec 4) : Row :=
  let r : Row := ⟨d, m, ctl, 0, 0⟩
  { r with cd := rowCode 84 (dataBits r), cm := rowCode 80 m.toNat }

/-- Decode of a row (13 R319): the row with single errors corrected and fresh codes in a correctable plane, and the states of its
data and mask planes. An uncorrectable plane is returned as stored. -/
def decodeRow (r : Row) : Row × Health × Health :=
  let (d, hd) := rowDecode 84 (dataBits r) r.cd
  let (m, hm) := rowDecode 80 r.m.toNat r.cm
  let r1 : Row := if hd = .correctable then
    { r with d := BitVec.ofNat 80 d, ctl := BitVec.ofNat 4 (d / 2 ^ 80), cd := rowCode 84 d } else r
  let r2 : Row := if hm = .correctable then { r1 with m := BitVec.ofNat 80 m, cm := rowCode 80 m } else r1
  (r2, hd, hm)

/-- An unlisted row: never written since the array came up, its valid bit reads 0 (02 R33). -/
def emptyRow : Row := freshRow 0 0 0

end Sys2Proof.Machine
end

