-- ==== Sys2Proof/Machine/Flags.lean ====
section
/-! DEFINITION. The status codes of replies, the block's flags: the answer of a command is one of them (15 Table 15.3). -/

namespace Sys2Proof.Machine

def stOk : Byte := 0x00
def stBadOpc : Byte := 0x01
def stBadLen : Byte := 0x02
def stBadArg : Byte := 0x03
def stDenied : Byte := 0x04
def stBudget : Byte := 0x05
def stThermal : Byte := 0x06
def stStaleNeg : Byte := 0x07
def stBusyFix : Byte := 0x08
def stNoBuffer : Byte := 0x09
def stNotHolder : Byte := 0x0A
def stQSize : Byte := 0x0B
def stQFullTimeout : Byte := 0x0C
def stCollide : Byte := 0x0D
def stPoison : Byte := 0x0E
def stQuiesced : Byte := 0x0F
def stPartial : Byte := 0x10
def stAwaitCs : Byte := 0x11
def stCsMismatch : Byte := 0x12
def stLent : Byte := 0x13
def stFull : Byte := 0x14
def stTimeout : Byte := 0x15

/-- The first failing check of a list of (refused, status), in order. -/
def firstBad : List (Bool × Byte) → Option Byte
  | [] => none
  | (b, st) :: t => if b then some st else firstBad t

end Sys2Proof.Machine
end

