-- ==== Sys2Proof/Machine/Operands.lean ====
section
/-! DEFINITION. The operands of a command packet: header fields, argument fields and payload words (15 R369-R371, R445). -/

namespace Sys2Proof.Machine

/-- The header checks after the opcode's (15 R370, 11 R262). -/
def headerBad (c : Cmd) : Bool := c.p.rsv52 || c.p.rsv37 != 0 || ([0x10, 0x11, 0x12].contains c.op && c.p.cls == 3)

/-- Bits of the argument that must be zero are zero (15 R445). -/
def argClear (c : Cmd) (m : BitVec 24) : Bool := c.p.arg &&& m == 0

/-- Payload word `i`, zero where there is none. -/
def payW (c : Cmd) (i : Nat) : Word := nth c.p.pay i 0

/-- Payload length. -/
def payN (c : Cmd) : Nat := c.p.pay.length

/-- Argument field. -/
def argF (c : Cmd) (hi lo : Nat) : Nat := fld c.p.arg hi lo

end Sys2Proof.Machine
end

