-- ==== Sys2Proof/Machine/Regs.lean ====
section
/-! DEFINITION. The management registers: which addresses exist (01 R27, R28), the access code, Factory value and Kept mark of every
bit (00 R5, R7, R8), and the stored part of a register. -/

namespace Sys2Proof.Machine

/-- What an address holds: a register of fields, a saturating anomaly counter (00 R10), the clear-on-read view of the counter at
`base`, or the low or high word of a statistics counter (00 R9, 01 R30). -/
inductive RegKind where
  | fields
  | cnt
  | rc (base : Nat)
  | statLo
  | statHi
  deriving DecidableEq, Repr

/-- A register: its kind, the bits of each access code, the Kept bits and the Factory value of its stored bits. A bit in none of the
masks is RO or reserved. -/
structure RegInfo where
  kind : RegKind := .fields
  rw : Reg := 0
  cs : Reg := 0
  w1c : Reg := 0
  wo : Reg := 0
  kept : Reg := 0
  fac : Reg := 0
  deriving DecidableEq, Repr

/-- A status register: every bit RO. -/
def roReg : Option RegInfo := some {}

/-- A register whose bits `m` are RW and Kept, with Factory value `f`. -/
def rwReg (m : Reg) (f : Reg := 0) : Option RegInfo := some { rw := m, kept := m, fac := f }

/-- A register whose bits `m` are CS and Kept. -/
def csReg (m : Reg) (f : Reg := 0) : Option RegInfo := some { cs := m, kept := m, fac := f }

/-- A register whose bits `m` are RO, stored and Kept. -/
def keptReg (m : Reg) (f : Reg := 0) : Option RegInfo := some { kept := m, fac := f }

/-- A status register with W1C bits `m`. -/
def w1cReg (m : Reg) : Option RegInfo := some { w1c := m }

/-- An anomaly counter at offset `o` of `l` with its clear-on-read view at the next offset. -/
def cntAt (base : Nat) (l : List Nat) (o : Nat) : Option RegInfo :=
  if l.contains o then some { kind := .cnt }
  else if 4 ≤ o && l.contains (o - 4) then some { kind := .rc (base + o - 4) } else none

/-- A statistics counter whose low word is at an offset of `l`. -/
def statAt (l : List Nat) (o : Nat) : Option RegInfo :=
  if l.contains o then some { kind := .statLo }
  else if 4 ≤ o && l.contains (o - 4) then some { kind := .statHi } else none

/-- Device control block (01 Table 1.11, 06 Table 6.14, 12 Table 12.10, 17 Table 17.9). -/
def devInfo (o : Nat) : Option RegInfo :=
  if o = 0x0 then roReg
  else if o = 0x40 then csReg (ones 9 0) 1000
  else if o = 0x110 then some { w1c := ones 26 26, kept := ones 31 31 }
  else if o = 0x114 then keptReg (ones 31 0)
  else if o = 0x118 then keptReg (ones 31 0) (ones 31 0)
  else if [0x100, 0x104, 0x108, 0x120, 0x300, 0x304].contains o then roReg
  else if o = 0x200 then w1cReg (ones 31 30)
  else (cntAt 0 [0x204, 0x20C, 0x308, 0x310, 0x318] o).orElse fun _ => statAt [0x320] o

/-- Time base and cycle generators (08 Table 8.7). -/
def tbInfo (o : Nat) : Option RegInfo :=
  if o = 0x0 then rwReg (ones 31 24)
  else if o = 0x8 then rwReg (ones 17 0)
  else if o = 0xC then keptReg (ones 31 0)
  else if o = 0x10 then rwReg (ones 31 0)
  else if o = 0x14 then rwReg (ones 19 0) 100000
  else if [0x4, 0x20, 0x24, 0x28, 0x2C, 0x30, 0x34, 0x38, 0x40].contains o then roReg
  else if 0x1000 ≤ o && decide (o < 0x1200) then
    let r := o % 0x20
    if r = 0x0 then keptReg (ones 31 31)
    else if r = 0x4 || r = 0xC then keptReg (ones 31 0)
    else if r = 0x8 then keptReg (ones 29 0)
    else if r = 0x10 then keptReg (ones 15 0)
    else if r = 0x14 then roReg else none
  else cntAt 0x10000 [0x48] o

/-- Exposure and power (11 Tables 11.10, 11.11; 18 Table 18.13). -/
def xpoInfo (g : Grade) (o : Nat) : Option RegInfo :=
  if o = 0x0 then rwReg (ones 16 0) 30000
  else if o = 0x4 then rwReg (ones 16 0) (match g with | .g12 => 75000 | .g10 => 62000)
  else if o = 0x8 then rwReg (ones 23 0) 2400000
  else if o = 0xC then rwReg (ones 23 0) 240000
  else if o = 0x10 then rwReg (ones 29 16 ||| ones 9 0) (pack 32 [(10000, 29, 16), (1000, 9, 0)])
  else if o = 0x14 then rwReg (ones 23 0) 240000
  else if o = 0x28 then rwReg (ones 31 24 ||| ones 21 16 ||| ones 4 0) (pack 32 [(64, 31, 24), (15, 21, 16), (16, 4, 0)])
  else if o = 0x2C then csReg (ones 6 0) 8
  else if o = 0x40 then w1cReg (ones 31 31)
  else if o = 0x100 then
    some { rw := ones 15 8 ||| ones 3 0, cs := ones 23 16, kept := ones 23 8 ||| ones 3 0,
           fac := pack 32 [(110, 23, 16), (100, 15, 8), (2, 3, 0)] }
  else if o = 0x104 then w1cReg (ones 29 29)
  else if o = 0x130 then rwReg (ones 31 28 ||| ones 23 0) (ones 31 28)
  else if o = 0x140 then some { rw := ones 13 0 }
  else if o = 0x150 then rwReg (ones 31 31) (ones 31 31)
  else if [0x18, 0x1C, 0x20, 0x24, 0x110, 0x114, 0x118, 0x11C, 0x120, 0x124, 0x134, 0x144].contains o then roReg
  else statAt [0x30, 0x38] o

/-- Factory value of a region register of master `m`, region `r`, `hi` for RGN_HI (12 Table 12.5). -/
def rgnFactory (m r : Nat) (hi : Bool) : Reg :=
  let pg := fun (first last : Nat) (fl : Nat) => if hi then pack 32 [(last, 31, 12)] else pack 32 [(first, 31, 12), (fl, 3, 0)]
  if m ≤ 8 && r = 0 then pg 0x1E80 0x1EBF 0b1110
  else if m ≥ 9 && r = 0 then pg 0 0x1EFF 0b1110
  else if m = 9 && r = 1 then pg 0x1C00 0x1C0F 0b1101
  else 0

/-- Protection and region registers (16 Table 16.4; 12 Tables 12.4, 12.10). -/
def protInfo (o : Nat) : Option RegInfo :=
  if o = 0x0 || o = 0x4 then csReg (ones 8 0)
  else if o = 0x8 then csReg (ones 9 0) 10
  else if o = 0xC then some { wo := ones 24 16 ||| ones 8 0 }
  else if o = 0x10 then w1cReg (ones 31 31)
  else if o = 0x14 || o = 0x18 then roReg
  else if 0x1000 ≤ o && decide (o < 0x1600) then
    let m := (o - 0x1000) / 0x80
    let r := (o - 0x1000) % 0x80 / 8
    if o % 8 = 0 then csReg (ones 31 12 ||| ones 3 0) (rgnFactory m r false) else csReg (ones 31 12) (rgnFactory m r true)
  else if 0x2000 ≤ o && decide (o < 0x2060) then if o % 8 = 0 then some { kind := .cnt } else some { kind := .rc (0x30000 + o - 4) }
  else if 0x2100 ≤ o && decide (o < 0x2160) then if o % 8 = 0 then some { kind := .cnt } else some { kind := .rc (0x30000 + o - 4) }
  else if o = 0x2200 || o = 0x2208 then roReg
  else if o = 0x2204 then w1cReg (ones 31 31)
  else (cntAt 0x30000 [0x28] o).orElse fun _ => statAt [0x20] o

/-- Links, ring and breach test (14 Table 14.10; 05 Table 5.11; 07 Table 7.7). -/
def linkInfo (o : Nat) : Option RegInfo :=
  if o < 0x800 then
    let r := o % 0x100
    let base := 0x40000 + (o - r)
    if r = 0x0 then
      some { rw := ones 31 30 ||| ones 28 28 ||| ones 21 16, wo := ones 29 29, kept := ones 31 30 ||| ones 28 28 ||| ones 21 16,
             fac := pack 32 [(1, 31, 31), (1, 28, 28), (4, 21, 16)] }
    else if r = 0x4 then rwReg (ones 31 24 ||| ones 20 16)
    else if r = 0x8 then roReg
    else (cntAt base [0x10, 0x18, 0x20, 0x28] r).orElse fun _ => statAt [0x30, 0x38] r
  else if 0x4000 ≤ o && decide (o < 0x4200) then
    let r := o % 0x100
    if r = 0x4 then rwReg (ones 31 24 ||| ones 21 16) (ones 21 21)
    else if r = 0x8 then roReg
    else cntAt (0x40000 + (o - r)) [0x10] r
  else if 0x8000 ≤ o && decide (o < 0x8100) then
    let r := o % 0x20
    if r = 0x0 || r = 0x4 then roReg else statAt [0x8] r
  else if o = 0xA000 || o = 0xA008 then some { rw := ones 31 12 }
  else if o = 0xA004 || o = 0xA00C then some { rw := ones 31 0 }
  else if o = 0xA010 then
    some { rw := ones 31 24 ||| ones 20 16 ||| ones 13 0, fac := pack 32 [(9, 28, 24), (9, 20, 16), (1, 7, 0)] }
  else if o = 0xA014 then some { rw := ones 15 0 }
  else if o = 0xA018 then roReg
  else if o = 0xA01C then w1cReg (ones 31 31)
  else if o = 0xC000 then some { rw := ones 31 31 ||| ones 15 8, wo := ones 30 30, kept := ones 31 31 ||| ones 15 8 }
  else if o = 0xC004 then roReg
  else if o = 0xC008 then rwReg (ones 17 0)
  else if [0xC010, 0xC014, 0xC018, 0xC01C].contains o then rwReg (ones 31 0)
  else if o = 0xE000 then some { cs := ones 31 31 }
  else if 0xE100 ≤ o && decide (o < 0xE150) then some { kind := if o % 8 = 0 then .statLo else .statHi }
  else (cntAt 0x40000 [0xA020, 0xA028, 0xC020, 0xC028] o).orElse fun _ => statAt [0xC030] o

/-- Key builder (04 Tables 4.3 to 4.9, 4.12; R104, R114). -/
def kbInfo (o : Nat) : Option RegInfo :=
  if o < 0x1000 then
    let r := o % 0x80
    if r = 0x0 then rwReg (ones 31 5)
    else if r = 0x4 then rwReg (ones 31 24 ||| ones 21 0)
    else if r = 0x8 then rwReg (ones 31 6)
    else if r = 0xC then rwReg (ones 31 23 ||| ones 15 0)
    else if 0x10 ≤ r && decide (r < 0x20) then rwReg (ones 31 31 ||| ones 21 0)
    else if 0x40 ≤ r then rwReg (ones 31 13 ||| ones 9 0)
    else none
  else if o < 0x1040 then rwReg (ones 31 31 ||| ones 28 20)
  else if 0x1200 ≤ o && decide (o < 0x1300) then
    let r := o % 0x40
    if 4 ≤ r && decide (r ≤ 0x18) then some { kind := .cnt }
    else if 0x24 ≤ r && decide (r ≤ 0x38) then some { kind := .rc (0x50000 + o - 0x20) } else none
  else if o = 0x1300 then roReg
  else if o = 0x1304 then rwReg (ones 17 0)
  else if o = 0x1308 then w1cReg (ones 31 31)
  else none

/-- Stream engine (09 Table 9.10). -/
def seInfo (o : Nat) : Option RegInfo :=
  if o = 0x0 then rwReg (ones 27 14 ||| ones 12 0) (pack 32 [(16, 27, 20), (8, 19, 14), (64, 12, 0)])
  else if o = 0x4 then rwReg (ones 22 0)
  else if o = 0x8 then rwReg (ones 31 31 ||| ones 17 0)
  else if o = 0xC then rwReg (ones 17 0)
  else if o = 0x10 then w1cReg (ones 31 31)
  else if 0x100 ≤ o && decide (o < 0x180) then
    let r := o % 0x20
    (cntAt (0x60000 + (o - r)) [0x8, 0x10] r).orElse fun _ => statAt [0x0] r
  else if 0x400 ≤ o && decide (o < 0x600) then rwReg (ones 31 9)
  else if 0x1000 ≤ o && decide (o < 0x2000) then
    let r := o % 0x10
    if r = 0x8 then rwReg (ones 31 0) else if r = 0xC then rwReg (ones 31 28 ||| ones 5 0) else rwReg (ones 23 0)
  else if 0x2000 ≤ o && decide (o < 0x2400) then
    let r := o % 0x40
    if r ≤ 0x18 then rwReg (ones 31 0)
    else if r = 0x1C then rwReg (ones 31 31 ||| ones 3 0)
    else if r = 0x20 then rwReg (ones 30 0) else none
  else if 0x4000 ≤ o && decide (o < 0x5000) then rwReg (ones 31 27 ||| ones 5 0)
  else none

/-- Queues, spillway and sluice (10 Table 10.11). -/
def qInfo (o : Nat) : Option RegInfo :=
  if o = 0x0 then rwReg (ones 15 0) 100
  else if o = 0x4 then rwReg (ones 17 0)
  else if o = 0x8 then w1cReg (ones 31 31)
  else if o = 0xC then w1cReg (ones 16 0)
  else if 0x100 ≤ o && decide (o < 0x200) then
    let r := o % 0x10
    if r = 0x0 || r = 0x4 then rwReg (ones 15 0) else if r = 0x8 then rwReg (ones 31 25 ||| ones 23 0) else none
  else if o = 0x1000 then rwReg (ones 31 21 ||| ones 13 0)
  else if o = 0x1004 || o = 0x2020 then roReg
  else if 0x2000 ≤ o && decide (o < 0x2020) then
    some { rw := ones 31 28 ||| ones 15 0, kept := ones 31 29 ||| ones 15 0 }
  else (cntAt 0x70000 [0x20, 0x28, 0x1008] o).orElse fun _ => statAt [0x10, 0x18] o

/-- Integrity (13 Table 13.14). -/
def eccInfo (o : Nat) : Option RegInfo :=
  if o = 0x0 then some { rw := ones 30 30, cs := ones 31 31, kept := ones 31 30 }
  else if o = 0x4 then w1cReg (ones 31 31)
  else if o = 0x200 then some { rw := ones 7 0 }
  else if [0x8, 0x204, 0x208, 0x20C, 0x210, 0x214, 0x300, 0x1040, 0x1044, 0x1048, 0x104C, 0x2010, 0x2014, 0x2018, 0x201C,
           0x2020].contains o then roReg
  else if 0x100 ≤ o && decide (o < 0x1D0) then
    if o % 8 = 0 then some { kind := .cnt } else some { kind := .rc (0x80000 + o - 4) }
  else if o = 0x2000 then rwReg (ones 31 30 ||| ones 15 0) 1000
  else if 0x2040 ≤ o && decide (o < 0x2080) then roReg
  else (cntAt 0x80000 [0xC] o).orElse fun _ => statAt [0x1000, 0x1008, 0x1010, 0x1018] o

/-- Search profiles (03 Tables 3.6 to 3.11). -/
def profInfo (o : Nat) : Option RegInfo :=
  if o < 0x2000 then
    let r := o % 0x40
    if r = 0x0 then rwReg (ones 31 31 ||| ones 23 16)
    else if r = 0x4 then rwReg (ones 31 14)
    else if r = 0x8 then rwReg (ones 8 0)
    else if 0x10 ≤ r && decide (r < 0x20) then rwReg (ones 29 24 ||| ones 22 12)
    else none
  else if o = 0x2000 then w1cReg (ones 31 31)
  else none

/-- A channel block (02 Table 2.9; 03 Tables 3.3, 3.15; 05 Table 5.8; 06 Table 6.15; 11 Table 11.12). -/
def chanInfo (ch o : Nat) : Option RegInfo :=
  let base := 0x100000 + ch * 0x40000
  if o < 0x400 then
    let r := o % 0x10
    if r = 0x0 || r = 0x4 then keptReg (ones 31 0) else if r = 0x8 then roReg else csReg (ones 1 0)
  else if o = 0x2000 then some { rw := ones 0 0, wo := ones 1 1, kept := ones 0 0 }
  else if [0x2004, 0x2008, 0x3004, 0x4000, 0x4004, 0x6008].contains o then roReg
  else if o = 0x3000 then
    some { w1c := ones 30 30, kept := ones 11 8 ||| ones 4 0, fac := pack 32 [(2 ^ ch, 11, 8), (1, 0, 0)] }
  else if 0x5000 ≤ o && decide (o < 0x5100) then roReg
  else if o = 0x5100 then rwReg (ones 5 0) 16
  else if o = 0x5104 then some { rw := ones 7 0, w1c := ones 30 30 }
  else if o = 0x6000 then rwReg (ones 31 28 ||| ones 15 0) 1024
  else if o = 0x6004 then rwReg (ones 31 0) (pack 32 [(100, 31, 16), (10000, 15, 0)])
  else if o = 0x600C then rwReg (ones 10 0) 256
  else if 0x6010 ≤ o && decide (o < 0x6030) then rwReg (if o % 8 = 0 then ones 31 27 else ones 31 0)
  else (cntAt base [0x2030, 0x3008, 0x4008, 0x4010, 0x4018, 0x5118, 0x6038, 0x6040, 0x6048] o).orElse fun _ =>
    statAt [0x2010, 0x2018, 0x2020, 0x2028, 0x5108, 0x5110, 0x6030] o

/-- The register at address `a`, or none where 01 R28 refuses the address: unaligned, reserved, or an unused offset. -/
def regInfo (g : Grade) (a : Nat) : Option RegInfo :=
  if a % 4 ≠ 0 then none
  else
    let o := a % 0x10000
    match a / 0x10000 with
    | 0x0 => devInfo o
    | 0x1 => tbInfo o
    | 0x2 => xpoInfo g o
    | 0x3 => protInfo o
    | 0x4 => linkInfo o
    | 0x5 => kbInfo o
    | 0x6 => seInfo o
    | 0x7 => qInfo o
    | 0x8 => eccInfo o
    | 0x9 => profInfo o
    | _ => if 0x100000 ≤ a && decide (a < 0x200000) then chanInfo ((a - 0x100000) / 0x40000) (a % 0x40000) else none

/-- Channel block address of offset `o` (01 R27). -/
def chAddr (ch : Nat) (o : Nat) : Nat := 0x100000 + ch * 0x40000 + o

/-- Factory value of the register at `a` (00 R7). -/
def regFac (g : Grade) (a : Nat) : Reg := match regInfo g a with | some i => i.fac | none => 0

/-- Stored bits of the register at `a`. -/
def getReg (s : State) (a : Nat) : Reg := mgetD s.regs a (regFac s.part.grade a)

/-- Stores `v` in the register at `a`; a register at its Factory value is not listed. -/
def setReg (a : Nat) (v : Reg) (s : State) : State :=
  { s with regs := if v = regFac s.part.grade a then mdel s.regs a else mset s.regs a v }

/-- Field `hi` to `lo` of the register at `a`. -/
def regF (s : State) (a hi lo : Nat) : Nat := fld (getReg s a) hi lo

/-- Bit `i` of the register at `a`. -/
def regB (s : State) (a i : Nat) : Bool := bitAt (getReg s a) i

/-- Sets a field of the register at `a`. -/
def setRegF (a hi lo v : Nat) (s : State) : State := setReg a (putF (getReg s a) v hi lo) s

/-- Adds `n` to the statistics counter whose low word is at `a`; it wraps (00 R9). -/
def addStat (a n : Nat) (s : State) : State :=
  { s with stat := mset s.stat a (mgetD s.stat a 0 + BitVec.ofNat 64 n) }

/-- Value of the anomaly counter at `a`. -/
def getCnt (s : State) (a : Nat) : Reg := mgetD s.cnt a 0

/-- SAT flag of the anomaly counter at `a` (00 R10): it holds the value 0xFFFF_FFFF. -/
def satOf (s : State) (a : Nat) : Bool := getCnt s a == BitVec.allOnes 32


end Sys2Proof.Machine
end

