-- ==== Sys2Proof/Machine/Ops.lean ====
section
/-! DEFINITION. The shared operations: clock and time base, free values, event staging, counters, the error log, replies, channel
groups and bindings. -/

namespace Sys2Proof.Machine

/-! ### Clock and time base -/

/-- One second in units of 2^-32 ns. -/
def secU : Nat := 1000000000 * 2 ^ 32

/-- One nanosecond in units of 2^-32 ns. -/
def nsU : Nat := 2 ^ 32

/-- The range of T: 2^48 seconds (08 R187). -/
def timeRange : Nat := 2 ^ 48 * secU

/-- `a ÷ b` to the nearest whole number; the spec says nothing of a tie. Log 24 (DESIGN CHOICE). -/
def nearest (a b : Nat) : Nat :=
  let q := a / b
  let r := 2 * (a % b)
  if r > b then q + 1 else if r = b then q + b2n Config.tieUp else q

/-- The increment I in units of 2^-32 ns: t_CCLK x (1 + r x 2^-40) (08 R188). -/
def increment (g : Grade) (r : Int) : Nat :=
  let f := (2 ^ 40 + r).toNat
  match g with
  | .g12 => nearest (4 * 2 ^ 32 * f) (5 * 2 ^ 40)
  | .g10 => nearest (2 ^ 32 * f) (2 ^ 40)

/-- The slew step: 500 ppm of t_CCLK (08 R191). -/
def slewStep : Grade → Nat
  | .g12 => 1717987
  | .g10 => 2147484

/-- CCLK per microsecond (00 R2). -/
def cclkPerUs : Grade → Nat
  | .g12 => 1250
  | .g10 => 1000

/-- Nanoseconds counted in CCLK, rounded up (08 R189). -/
def nsToCclk (g : Grade) (ns : Nat) : Nat := cdiv (ns * cclkPerUs g) 1000

/-- Bytes of `sec`, `ns` and `frac` of a time (08 Table 8.1). -/
def tSec (t : Nat) : Nat := t / secU % 2 ^ 48
def tNs (t : Nat) : Nat := t % secU / nsU
def tFrac (t : Nat) : Nat := t % nsU

/-- A difference in units of 2^-32 ns as a whole number of nanoseconds: one of the two next to it. Log 24 (DESIGN CHOICE). -/
def wholeNs (d : Int) : Int := if d % (nsU : Nat) = 0 then d / (nsU : Nat) else d / (nsU : Nat) + b2n (Config.stepUp d)

/-- A time from its fields. -/
def tOf (sec ns frac : Nat) : Nat := sec * secU + ns * nsU + frac

/-- The core domain runs: CCLK is not stopped and the domain is not held in reset (01 R25, 17 R402). -/
def running (s : State) : Bool :=
  match s.dev.st with
  | .startup | .run => true
  | _ => false

/-- The slew applied in `n` CCLK to a remaining `left` (08 R191). -/
def slewIn (step n : Nat) (left : Int) : Int :=
  if left ≥ 0 then min left (n * step : Nat) else max left (-((n * step : Nat) : Int))

/-- How far T moves in the last of `n` CCLK (08 R188, R191). -/
def lastMove (g : Grade) (n i : Nat) (left : Int) : Nat :=
  let d := slewIn (slewStep g) n left - slewIn (slewStep g) (n - 1) left
  ((i : Int) + d).toNat

/-- `n` CCLK pass: the clock counts and T advances (08 R188, R191), unless it waits for its start (R199). T past its 48 bits of seconds
wraps to 0. Log 95 (DESIGN CHOICE). -/
def advance (n : Nat) (s : State) : State :=
  let g := s.part.grade
  let sl := slewIn (slewStep g) n s.tb.slewLeft
  let t : Int := (s.tb.t + n * increment g (sgn (getReg s 0x1000C)) : Nat) + sl
  { s with
    cclk := s.cclk + n
    tb := if s.tb.wait then s.tb else { s.tb with t := (t.toNat) % timeRange, slewLeft := s.tb.slewLeft - sl,
                                                  moved := lastMove g n (increment g (sgn (getReg s 0x1000C))) s.tb.slewLeft } }

/-- The clock moves on to CCLK `c`; it never moves back. -/
def advanceTo (c : Nat) (s : State) : State := if c ≤ s.cclk then s else advance (c - s.cclk) s

/-- A new line of T begins in the present CCLK. Lines are kept for 64 CCLK. -/
def newLine (s : State) : State :=
  let l : TLine := ⟨s.cclk, s.tb.t, increment s.part.grade (sgn (getReg s 0x1000C)), s.tb.slewLeft⟩
  let late := fun (x : TLine) => decide (x.at_ + 64 > s.cclk)
  { s with tb := { s.tb with lines := l :: (s.tb.lines.takeWhile late ++ (s.tb.lines.dropWhile late).take 1) } }

/-- T in CCLK `c` (08 R188, R191). For a CCLK before the present one T is that of the line it lies on; where none is kept it is counted
back at the present rate and slew. -/
def timeAt (c : Nat) (s : State) : Nat :=
  if s.cclk ≤ c || s.tb.wait then (advanceTo c s).tb.t
  else
    let g := s.part.grade
    let t : Int := match s.tb.lines.find? fun x => decide (x.at_ ≤ c) with
      | some x => (x.t + (c - x.at_) * x.inc : Nat) + slewIn (slewStep g) (c - x.at_) x.left
      | none => (s.tb.t : Int) - ((s.cclk - c) * increment g (sgn (getReg s 0x1000C)) : Nat) - slewIn (slewStep g) (s.cclk - c) s.tb.slewLeft
    t.toNat % timeRange

/-- The least `n ≤ k` with `p n`, found by halving where `p` once true stays true; `k` where none. -/
def searchLeast (p : Nat → Bool) : Nat → Nat → Nat → Nat
  | 0, _, hi => hi
  | fuel + 1, lo, hi => if lo ≥ hi then hi else
    let mid := (lo + hi) / 2
    if p mid then searchLeast p fuel lo mid else searchLeast p fuel (mid + 1) hi

/-- The first CCLK from now in which T has moved by `d` units or more: T never runs back while it advances (08 R191), and never
advances by less than a third of a nanosecond a CCLK. -/
def cclkOfDelta (d : Nat) (s : State) : Nat :=
  let passed := fun n =>
    let g := s.part.grade
    let r := n * increment g (sgn (getReg s 0x1000C))
    decide (((r : Nat) : Int) + slewIn (slewStep g) n s.tb.slewLeft ≥ (d : Int))
  s.cclk + searchLeast passed 128 0 (d / 1000000000 + 2)

/-- The first CCLK from now in which T is `t` or later. -/
def cclkOfTime (t : Int) (s : State) : Nat := cclkOfDelta (t - s.tb.t).toNat s

/-! ### Free values -/

/-- A fresh free value (notes/assumptions/3.md) and the state that has drawn it. -/
def draw (s : State) : Word × State := (Config.freeWord s.free, { s with free := s.free + 1 })

/-! ### Channels, groups and bindings -/

/-- Channel number `c` modulo 4. -/
def chn (c : Nat) : Chn := ⟨c % 4, Nat.mod_lt _ (by decide)⟩

/-- Channel `c`. -/
def chan (s : State) (c : Chn) : Chan := s.ch[c]

/-- Changes channel `c`. -/
def modChan (c : Chn) (f : Chan → Chan) (s : State) : State := { s with ch := s.ch.set c (f s.ch[c]) }

/-- Port group `p`. -/
def modPg (p : Fin 8) (f : Pg → Pg) (s : State) : State := { s with pg := s.pg.set p (f s.pg[p]) }

/-- Port group number `p` modulo 8. -/
def pgn (p : Nat) : Fin 8 := ⟨p % 8, Nat.mod_lt _ (by decide)⟩

/-- Lock mode of a channel (03 Table 3.16): 0 INDEPENDENT, 1 TWIN, 2 SPAN, 3 REPLICA. -/
def lockMode (s : State) (c : Chn) : Nat := regF s (chAddr c 0x3000) 3 1

/-- Members of the group a channel belongs to, ascending (03 Table 3.16). -/
def groupOf (s : State) (c : Chn) : List Chn :=
  (below 4 fun i => regB s (chAddr c 0x3000) (8 + i)).map chn

/-- The lead of a channel's group: its lowest-numbered member (03 R74). -/
def leadOf (s : State) (c : Chn) : Chn := (groupOf s c).headD c

/-- The channel leads its group or is INDEPENDENT. -/
def isLead (s : State) (c : Chn) : Bool := leadOf s c == c

/-- The authority an access point is bound to: 0 none, 1 AUTH_A, 2 AUTH_B (16 R391). -/
def authOf (s : State) (ap : Nat) : Nat :=
  if regB s 0x30000 ap then 1 else if regB s 0x30004 ap then 2 else 0

/-- The part is in factory state: no authority is bound (16 R393). -/
def factoryState (s : State) : Bool := getReg s 0x30000 == 0 && getReg s 0x30004 == 0

/-- The owner of a partition of a group (03 R65); `c` is the group's lead. -/
def ownerOf (s : State) (c : Chn) (p : Nat) : Nat := regF s (chAddr c (p * 0x10 + 0xC)) 1 0

/-- The access point is barred by the partition's owner (03 R65). -/
def ownerBars (s : State) (c : Chn) (p : Nat) (ap : Ap) : Bool :=
  ownerOf s c p != 0 && ownerOf s c p != authOf s ap

/-! ### ALIVE_N (07 R171) -/

/-- Bit of this part's own device id. -/
def ownBit (s : State) : Byte := BitVec.ofNat 8 (2 ^ s.dev.devId.toNat)

/-- The part serves the ring: FORMED or WRAPPED (07 R171). -/
def ringServes (s : State) : Bool := s.ring.st == .formed || s.ring.st == .wrapped

/-- ALIVE_N reads low after the part enters a ring state: it drives the pin low itself while it serves; when it releases the pin, the
other live members, which serve, still hold it (07 R171). -/
def aliveAfter (s : State) (st : RingSt) : Bool :=
  if st == .formed || st == .wrapped then true
  else if ringServes s then s.ring.live &&& ~~~(ownBit s) != 0 else s.pins.aliveLow

/-! ### Events (10 R240, R245) -/

/-- Queue descriptor in force: the default of 10 R235 where none differs. -/
def qDesc (s : State) (q : Nat) : QDesc := mgetD s.qm.desc q { base := 4 * q }

/-- Stores a descriptor; one that equals the default is not listed. -/
def setQDesc (q : Nat) (d : QDesc) (s : State) : State :=
  { s with qm := { s.qm with desc := if d = { base := 4 * q } then mdel s.qm.desc q else mset s.qm.desc q d } }

/-- Puts a staged event in its place: by CCLK, those of one CCLK in producer order, then ascending type and source (10 R245).
Log 68 (DEDUCED). -/
def insertStaged (x : Staged) : List Staged → List Staged
  | [] => [x]
  | y :: t =>
    let after := decide (y.at_ > x.at_) || y.at_ = x.at_ &&
      (decide (x.rank < y.rank) ||
        (x.rank == y.rank && (decide (x.ev.type.toNat < y.ev.type.toNat) ||
          (x.ev.type == y.ev.type && decide (x.ev.source.toNat < y.ev.source.toNat)))))
    if after then x :: y :: t else y :: insertStaged x t

/-- An event goes to the spillway's staging store, or is dropped and counted when that is full (10 R245, R257). `bump` counts the
drop. -/
def spillWith (bump : State → State) (ev : Event) (q : BitVec 18) (reason : BitVec 2) (s : State) : State :=
  let s := setQDesc q.toNat { qDesc s q.toNat with spilled := true } s
  if s.qm.spill.length < 32 then
    { s with qm := { s.qm with spill := s.qm.spill ++ [⟨ev, q, reason, s.cclk⟩] } }
  else bump { s with qm := { s.qm with dropped := min 65535 (s.qm.dropped + 1) } }

/-- Puts an event into the staging store of 32 items; when that is full, the last in producer order of those offered goes to the spillway
(10 R245). Log 68 (DEDUCED). -/
def stage (bump : State → State) (x : Staged) (s : State) : State :=
  let l := insertStaged x s.qm.staged
  if s.qm.staged.length < 32 then { s with qm := { s.qm with staged := l } }
  else
    let y := l.getLastD x
    spillWith bump y.ev y.q 2 { s with qm := { s.qm with staged := l.dropLast } }

/-- Offers an event to the staging store in CCLK `n`, now or later (10 R240, R245). -/
def postWithAt (n : Nat) (bump : State → State) (rank : Nat) (q : BitVec 18) (ev : Event) (s : State) : State :=
  let x : Staged := ⟨{ ev with t := timeAt n s }, q, n, rank, 0⟩
  if n > s.cclk then { s with qm := { s.qm with soon := insertStaged x s.qm.soon } } else stage bump x s

/-- Offers an event to the staging store in the present CCLK. -/
def postWith (bump : State → State) (rank : Nat) (q : BitVec 18) (ev : Event) (s : State) : State :=
  postWithAt s.cclk bump rank q ev s

/-- Adds one to an anomaly counter; it holds at 0xFFFF_FFFF (00 R10). -/
def rawBump (a : Nat) (s : State) : State :=
  { s with cnt := if getCnt s a = BitVec.allOnes 32 then s.cnt else mset s.cnt a (getCnt s a + 1) }

/-- Queue of device events (10 Table 10.6). -/
def devQ (s : State) : BitVec 18 := (getReg s 0x70004).setWidth 18

/-- The CNT_SAT event of the counter at `a` (10 Table 10.5). -/
def cntSat (a : Nat) : Event := { type := 0x38, source := 0, w1 := BitVec.ofNat 64 a }

/-- Counts an event that the spillway drops, and posts its saturation; that event is itself dropped when nothing has room. -/
def bumpDrop (s : State) : State :=
  let s' := rawBump 0x71008 s
  if satOf s' 0x71008 && !satOf s 0x71008 then postWith id (11 * 2 ^ 36 + 0x71008) (devQ s') (cntSat 0x71008) s' else s'

/-- Counts in the anomaly counter at `a`, and posts CNT_SAT when it reaches 0xFFFF_FFFF (00 R10). Log 91 (DEDUCED). -/
def bump (a : Nat) (s : State) : State :=
  let s' := rawBump a s
  if satOf s' a && !satOf s a then postWith bumpDrop (11 * 2 ^ 36 + a) (devQ s') (cntSat a) s' else s'

/-- Counts `k` in an anomaly counter, which holds at 0xFFFF_FFFF (00 R10). -/
def bumpN (k a : Nat) (s : State) : State :=
  let c := getCnt s a
  if k = 0 then s
  else
    let s' := { s with cnt := mset s.cnt a (BitVec.ofNat 32 (min (2 ^ 32 - 1) (c.toNat + k))) }
    if satOf s' a && !satOf s a then postWith bumpDrop (11 * 2 ^ 36 + a) (devQ s') (cntSat a) s' else s'

/-- Posts an event to queue `q`; `rank` is the producer's place in the order of 10 R245. -/
def post (rank : Nat) (q : BitVec 18) (ev : Event) (s : State) : State := postWith bumpDrop (rank * 2 ^ 36) q ev s

/-- Posts an event of a producer's instance `sub` in CCLK `n`. -/
def postAt (n rank sub : Nat) (q : BitVec 18) (ev : Event) (s : State) : State :=
  postWithAt n bumpDrop (rank * 2 ^ 36 + sub) q ev s

/-- The events whose CCLK has come are offered to the staging store, with the T of that CCLK (10 R240); done after every command.
Log 68 (DEDUCED). -/
def offerSoon (s : State) : State :=
  let (now, later) := s.qm.soon.partition fun x => decide (x.at_ ≤ s.cclk)
  now.foldl (fun s x => stage bumpDrop { x with ev := { x.ev with t := timeAt x.at_ s } } s) { s with qm := { s.qm with soon := later } }

/-- Sends an event to the spillway with a reason of 10 Table 10.9. -/
def spill (ev : Event) (q : BitVec 18) (reason : BitVec 2) (s : State) : State := spillWith bumpDrop ev q reason s

/-- Posts to the device event queue as the integrity logic, the exposure scheduler or the buffer pool (10 Table 10.6). -/
def postDev (rank : Nat) (ev : Event) (s : State) : State := post rank (devQ s) ev s

/-! ### Error log and poison (13 R315, R316, R326) -/

/-- Adds a record to the error log, stamped with T (13 R326, Table 13.7). -/
def logRec (kind mem detail : Nat) (block : BitVec 16) (locator : Nat) (s : State) : State :=
  let r : LogRec := ⟨pack 64 [(kind, 63, 60), (mem, 59, 56), (detail, 55, 48), (block.toNat, 47, 32), (locator, 31, 0)],
    pack 64 [(tSec s.tb.t, 63, 30), (tNs s.tb.t, 29, 0)]⟩
  let full := (mget s.log.recs s.log.head).isSome
  { s with log := { recs := mset s.log.recs s.log.head r, head := (s.log.head + 1) % 256,
                    ovr := if full then min 65535 (s.log.ovr + 1) else s.log.ovr } }

/-- Names word `key` of a memory for the once-per-word rule of 13 R316: the SRAM address, or the channel and the word's place in its
memory. -/
def poisonKey (mem key : Nat) : Nat := mem * 2 ^ 32 + key

/-- A read finds word `key` of memory `mem` poisoned: counted; the first time, logged and posted (13 R316). Log 82 (DEDUCED). -/
def metPoison (mem key locator : Nat) (mask : Byte) (s : State) : State :=
  let s := bump (0x80108 + mem * 0x10) s
  let k := poisonKey mem key
  if s.poisonSeen.contains k then s
  else
    let s := logRec 1 mem mask.toNat 0 locator s
    let s := { s with poisonSeen := k :: s.poisonSeen }
    postDev 9 { type := 0x40, source := BitVec.ofNat 18 mem, w1 := pack 64 [(locator, 63, 32), (mask.toNat, 31, 24)] } s

/-- A read finds a correctable word (13 R315). -/
def metCorr (mem : Nat) (s : State) : State := bump (0x80100 + mem * 0x10) s

/-- What a read of a word of memory `mem` counts and reports. -/
def noteRead (mem key locator : Nat) (h : Health) (mask : Byte) (s : State) : State :=
  match h with
  | .correct => s
  | .correctable => metCorr mem s
  | .poisoned => metPoison mem key locator mask s

/-- A write has cleared a word's poison: its record and event are armed again (13 R316, R317). Log 82 (DEDUCED). -/
def rearm (mem key : Nat) (s : State) : State :=
  { s with poisonSeen := s.poisonSeen.filter (· != poisonKey mem key) }

/-! ### Replies (05 R115, R129; 10 R253) -/

/-- Gives a reply to the reply store of its access point, or to the queue manager when a work queue released the command. -/
def sendReply (c : Cmd) (r : Reply) (s : State) : State :=
  match c.wq with
  | none => { s with replies := s.replies ++ [r] }
  | some q => { s with qm := { s.qm with done := s.qm.done ++ [(q, r)] } }

/-- The reply of a command: status, information field, payload, and the CCLK its first flit may leave in (05 R115, 15 R376). A status
that carries no payload has none. -/
def mkReply (c : Cmd) (status : Byte) (info : Nat) (pay : List Word) (ready : Nat) : Reply :=
  let carries := [stOk, stCollide, stPoison, stPartial, stAwaitCs, stLent].contains status
  { ap := c.p.ap, op := c.op, status := status, tag := c.p.tag, info := BitVec.ofNat 24 info,
    pay := if carries then pay else [], id := c.id, ready := ready }

/-- Replies at once. -/
def reply (c : Cmd) (status : Byte) (info : Nat) (pay : List Word) (s : State) : State :=
  sendReply c (mkReply c status info pay s.cclk) s

/-- Replies at once; `x` follows when the reply has left. -/
def replyAfter (c : Cmd) (status : Byte) (info : Nat) (pay : List Word) (x : After) (s : State) : State :=
  sendReply c { mkReply c status info pay s.cclk with after := x } s

/-- A parked firmware command replies and is parked no longer (15 R374). -/
def finish (c : Cmd) (status : Byte) (info : Nat) (s : State) : State :=
  reply c status info [] { s with fw := { s.fw with parked := s.fw.parked.filter (·.cmd.id != c.id) } }

/-- Replies with a status alone. -/
def refuse (c : Cmd) (status : Byte) (s : State) : State := reply c status 0 [] s

/-- The command of a packet whose last flit passes its check now, with its place in the order of checks (15 R373). -/
def cmdOf (op : Byte) (p : Pkt) (s : State) : Cmd := { op := op, p := p, chk := s.cclk, id := s.nextId }

/-! ### Arbiters and command queues (01 R444; 15 R373) -/

/-- Number of a source for arbitration (01 R444). -/
def srcOf (c : Cmd) : Nat := if c.wq.isSome then 9 else c.p.ap

/-- Place of source `n` in a rotation that starts at `rot`. -/
def rotRank (rot n : Nat) : Nat := (n + 11 - rot % 11) % 11

/-- Puts a command behind those checked before it, and in rotating order among those of its CCLK (06 R146). Log 28 (DESIGN CHOICE). -/
def insertCmd (rot : Nat) (c : Cmd) : List Cmd → List Cmd
  | [] => [c]
  | y :: t =>
    if y.chk == c.chk && (y :: t).all (fun z => z.chk == c.chk) && decide (rotRank rot (srcOf c) < rotRank rot (srcOf y)) then c :: y :: t
    else y :: insertCmd rot c t

/-- The rotation of an arbiter in CCLK `n`: sources that competed in an earlier one have moved it. -/
def Rota.at (a : Rota) (n : Nat) : Rota :=
  match a.cont with
  | some (m, r) => if m < n then { rot := r } else a
  | none => a

/-- The arbiter after the request of `c`, with the sources `others` that have requested in its CCLK and stand in the queue: where two
sources or more request, the one ranked first counts. -/
def Rota.ask (c : Cmd) (others : List Nat) (a : Rota) : Rota :=
  let a := a.at c.chk
  let all := others ++ if a.out.1 = c.chk then a.out.2 else []
  if all.all (· == srcOf c) then a
  else
    let first := all.foldl (fun x y => if rotRank a.rot y < rotRank a.rot x then y else x) (srcOf c)
    { a with cont := some (c.chk, (first + 1) % 11) }

/-- The command `x` finds no place: its source has requested all the same. -/
def Rota.turnAway (x : Cmd) (a : Rota) : Rota := { a with out := (x.chk, srcOf x :: if a.out.1 = x.chk then a.out.2 else []) }

/-- A command joins a queue that holds `cap`: the arbiter, the queue, and the command that finds no place, the last of those of its CCLK
(01 R444; 15 R373). -/
def joinQueue (cap : Nat) (c : Cmd) (a : Rota) (q : List Cmd) : Rota × List Cmd × Option Cmd :=
  let b := a.ask c ((q.filter fun y => y.chk == c.chk).map srcOf)
  let l := insertCmd b.rot c q
  if q.length < cap then (b, l, none) else ((l.getLast?.map b.turnAway).getD b, l.dropLast, l.getLast?)

/-- A command joins the queue of a unit that holds `cap`: the unit, and the command that finds no place. -/
def UnitQ.join (cap : Nat) (c : Cmd) (u : UnitQ) : UnitQ × Option Cmd :=
  let (a, q, x) := joinQueue cap c u.arb u.queue
  ({ u with queue := q, arb := a }, x)

/-- The rows of a command packet: a packet passes its check in the CCLK in which the row acts. -/
def isPacket : Instr → Bool
  | .nop _ | .echo _ | .info _ | .unlistedOpcode _ _ | .srch _ | .hsrch _ | .srch2 _ | .entWr _ | .entRd _ | .entIns _ | .entDel _ | .prioWr _
  | .adWr _ | .adRd _ | .negOpen _ | .negCommit _ | .negCommitAtPhase _ | .negAbort _ | .partCfg _ | .stmWr _ | .stmRd _ | .stmClr _ | .qCfg _
  | .qCfgRead _ | .qPush _ | .qPop _ | .qSkip _ | .qFlush _ | .spillPop _ | .bufGet _ | .bufShare _ | .bufRelease _ | .bufWr _ | .bufRd _
  | .mgmtRd _ | .mgmtWr _ | .memRd _ | .memWr _ | .memRawRd _ | .memRawWr _ | .xpoSet _ | .chState _ | .chStateDeviceDarkroom _ | .timeSet _
  | .timeSetAtPps _ | .timeAdjRate _ | .timeAdjStep _ | .timeAdjSlew _ | .cygCfg _ | .cygCfgOff _ | .chQuiesce _ | .chResume _ | .chLock _
  | .proofStart _ | .calStart _ | .repairBlock _ | .repairRowRemap _ | .fwStage _ | .fwSwitch _ | .imageSave _ | .devReset _
  | .devResetChannel _ | .protPropose _ | .protCountersign _ | .protWithdraw _ | .protStatus _ | .breachCfg _ => true
  | _ => false

/-- A further packet waits behind the present command: it passes its check in the same CCLK, so that the units do not yet choose among the
commands of this CCLK (01 R444; 15 R373). Log 28 (DESIGN CHOICE). -/
def moreNow (s : State) : Bool := match s.pending with | i :: _ => isPacket i | [] => false

/-- A command passes its check now. -/
def arrive (op : Byte) (p : Pkt) (s : State) : Cmd × State := (cmdOf op p s, { s with nextId := s.nextId + 1 })

end Sys2Proof.Machine
end

