-- ==== Sys2Proof/Machine/ImageWords.lean ====
section
/-! DEFINITION. The words of a latent image: header, sections and CRC-32 (17 R408). -/

namespace Sys2Proof.Machine

/-- A section word (17 Table 17.5). -/
def sectionWord (type count addr : Nat) : Word := pack 64 [(type, 63, 56), (count, 55, 40), (addr, 31, 0)]

/-- The Kept bits of the register at `a` as an image holds them, every other bit at Factory. -/
def imageReg (gr : Grade) (g : Image) (a : Nat) : Reg := mgetD g.regs a (regFac gr a)

/-- A section of the part's layout, as type, `addr` and number of registers or words, with its body (17 R408); a reserved type has none.
The body of the repair map is the part's own. Log 13 (DESIGN CHOICE). -/
def imageSection (gr : Grade) (g : Image) (x : Nat × Nat × Nat) : List Word :=
  let (type, a, n) := x
  match type with
  | 1 => sectionWord 1 n a :: packRegs ((List.range n).map fun i => imageReg gr g (a + 4 * i))
  | 2 => sectionWord 2 256 (g.log.head % 256) :: (List.range 256).flatMap fun i => match mget g.log.recs i with | some r => [r.w0, r.w1] | none => [0, 0]
  | 3 => sectionWord 3 n 0 :: (List.range n).map (Config.mapWord g.gen)
  | 4 =>
    let slot := fun (a : Nat) (v : BitVec 16) => pack 64 [(v.toNat, 47, 32), ((imageReg gr g a).toNat, 31, 0)]
    [sectionWord 4 2 0, slot 0x114 g.ver.1, slot 0x118 g.ver.2]
  | _ => []

/-- Words 3 to the end of an image: its sections, and the one that ends it; at most 8,192 words in all (17 Table 17.4). -/
def imageBody (gr : Grade) (g : Image) : List Word :=
  ((Config.imageLayout g.gen).flatMap (imageSection gr g)).take 8188 ++ [sectionWord 0xFF 0 0]

/-- Words of an image, header included, 4 to 8,192 (17 R408). -/
def imageLen (gr : Grade) (g : Image) : Nat := 3 + (imageBody gr g).length

/-- The words of an image (17 Table 17.4); `crc` covers words 2 to the end. Log 13 (DESIGN CHOICE). -/
def imageWords (gr : Grade) (g : Image) : List Word :=
  let l := pack 64 [(imageLen gr g, 63, 48), (g.fwVersion.toNat, 47, 32), (b2n g.fwSlot, 31, 31)] :: imageBody gr g
  pack 64 [(0xD1A72816, 63, 32), (1, 31, 24)] :: pack 64 [(g.gen, 63, 32), ((crc32 (l.flatMap wordBytes)).toNat, 31, 0)] :: l

/-- Word `i` of retained-store buffer `b`: of the image that the buffer holds, then what was there before. Log 13 (DESIGN CHOICE). -/
def imageAt (gr : Grade) (img : Option Image) (b i : Nat) : Option SWord :=
  img.map fun g => encode ((imageWords gr g)[i]?.getD (Config.imageRest b g.gen i))

end Sys2Proof.Machine
end

