-- ==== Sys2Proof/Machine/Memory.lean ====
section
/-! DEFINITION. The SRAM address space: its map, bank groups, regions, reads and writes of words (12 R286-R299, 13 R311-R318). A word is
named by its SRAM address divided by 8. -/

namespace Sys2Proof.Machine

/-! ### The map (12 Table 12.1, 13 Table 13.3) -/

def streamBase : Nat := 0x000000
def queueBase : Nat := 0x200000
def poolBase : Nat := 0x300000
def ralemBase : Nat := 0x380000
def gateBase : Nat := 0x3C0000
def mboxBase : Nat := 0x3D0000
def spillBase : Nat := 0x3D8000
def retainBase : Nat := 0x3DC000
def sramEnd : Nat := 0x3E0000

/-- Memory identifier of SRAM word `w` (13 Table 13.3), none where the address is reserved. -/
def memId (w : Nat) : Option Nat :=
  if w < queueBase then some 2 else if w < poolBase then some 3 else if w < ralemBase then some 5
  else if w < gateBase then some 6 else if w < mboxBase then some 4 else if w < spillBase then some 7
  else if w < retainBase then some 8 else if w < sramEnd then some 9 else none

/-- Bank group of SRAM word `w` (11 Table 11.7). -/
def bgOf (w : Nat) : Option Nat :=
  if w < queueBase then some (w / 0x80000)
  else if 0x280000 ≤ w && decide (w < poolBase) then some 4
  else if 0x340000 ≤ w && decide (w < ralemBase) then some 5
  else if mboxBase ≤ w && decide (w < spillBase) then some 6 else none

/-- Current mode of bank group `g`: 0 ON, 1 RET, 2 OFF (11 Table 11.11). -/
def bgMode (s : State) (g : Nat) : Nat := mgetD s.bgCur g 0

/-- Word `w` lies in a bank group that is not ON. -/
def asleep (s : State) (w : Nat) : Bool := match bgOf w with | some g => bgMode s g != 0 | none => false

/-- Buffer `b` of the pool is free (12 R300). -/
def bufFree (s : State) (b : Nat) : Bool := (mgetD s.pool.tags b {}).count == 0

/-- SRAM word `w` as stored; none: never written (13 R314). The first word of a free buffer that no free or rebuild has written since the
lists were threaded at reset links to the next buffer (12 R301, R309). Log 25 (DESIGN CHOICE). Log 89 (DESIGN CHOICE). -/
def rawWord (s : State) (w : Nat) : Option SWord :=
  if retainBase ≤ w then
    let o := w - retainBase
    imageAt s.part.grade (if o < 0x2000 then s.aon.img0 else s.aon.img1) (o / 0x2000) (o % 0x2000)
  else match mget s.sram w with
    | some x => some x
    | none =>
      if poolBase ≤ w && decide (w < ralemBase) && (w - poolBase) % 16 == 0 then
        let b := (w - poolBase) / 16
        if bufFree s b && b % 16384 != 16383 then some (encode (BitVec.ofNat 64 (b + 1))) else none
      else none

/-- Drops a heal that waits for a word (13 R318). Words of the other memories are named by `healKey`. -/
def cancelHeal (k : Nat) (s : State) : State := { s with healQ := s.healQ.filter (· != k) }

/-- Queues a corrected word for healing, at each read that corrects it (13 R318). -/
def offerHeal (k : Nat) (s : State) : State :=
  if !regB s 0x80000 30 then s
  else if s.healQ.length < 16 then { s with healQ := s.healQ ++ [k] } else bump 0x8000C s

/-- What a read finds in a word that is stored as `x`, with the bytes that are poisoned (13 R312-R314). -/
def wordRead (bad : Bool) (x : Option SWord) : Word × Health × Byte :=
  if bad then (0, .poisoned, 0xff) else match x with | none => (0, .correct, 0) | some x => decodeWord x

/-- A read of SRAM word `w` (13 R312-R316): its data, zero when poisoned; whether it is poisoned; the counts and reports made. A parity
error of its valid bit makes it read as poisoned until it is written (13 R314). -/
def readMem (w : Nat) (s : State) : Word × Bool × State :=
  let (v, h, mask) := wordRead (s.vbad.contains w) (rawWord s w)
  let s := noteRead ((memId w).getD 10) (w * 8) (w * 8) h mask s
  match h with
  | .correct => (v, false, s)
  | .correctable => (v, false, offerHeal w s)
  | .poisoned => (0, true, s)

/-- Reads words `w`, `w + 1`, ... : their data, the indexes of the poisoned ones, and the state. -/
def readMems (w : Nat) : Nat → Nat → State → List Word × List Nat × State
  | 0, _, s => ([], [], s)
  | n + 1, i, s =>
    let (v, p, s) := readMem (w + i) s
    let (vs, ps, s) := readMems w n (i + 1) s
    (v :: vs, if p then i :: ps else ps, s)

/-- Stores an SRAM word as it is. -/
def storeMem (w : Nat) (x : SWord) (s : State) : State :=
  let s := cancelHeal w { s with sram := mset s.sram w x, vbad := s.vbad.filter (· != w) }
  if (decodeWord x).2.1 = .poisoned then s else rearm ((memId w).getD 10) (w * 8) s

/-- Writes the bytes of `be` of SRAM word `w` (13 R317). Log 23 (DESIGN CHOICE). -/
def writeMem (w : Nat) (be : Byte) (v : Word) (s : State) : State := storeMem w (writeLanes (rawWord s w) be v) s

/-- Writes whole words `w`, `w + 1`, ... -/
def writeMems (w : Nat) (vs : List Word) (s : State) : State :=
  (vs.zipIdx).foldl (fun s p => writeMem (w + p.2) 0xff p.1 s) s

/-- Words `lo` to `hi - 1` become never written (13 R314). -/
def clearMem (lo hi : Nat) (s : State) : State :=
  { s with sram := s.sram.filter fun p => !(decide (lo ≤ p.1) && decide (p.1 < hi))
           vbad := s.vbad.filter fun w => !(decide (lo ≤ w) && decide (w < hi))
           poisonSeen := s.poisonSeen.filter fun k => !(decide (2 * 2 ^ 32 ≤ k) && decide (k < 10 * 2 ^ 32) &&
             decide (lo ≤ k % 2 ^ 32 / 8) && decide (k % 2 ^ 32 / 8 < hi))
           healQ := s.healQ.filter fun k => !(decide (lo ≤ k) && decide (k < hi)) }

/-! ### Regions (12 R294, R295) -/

/-- Master `m` may read or write page `pg`. Log 14 (DEDUCED). -/
def rgnAllows (s : State) (m pg : Nat) (write : Bool) : Bool :=
  (List.range 16).any fun r =>
    let lo := getReg s (0x31000 + m * 0x80 + r * 8)
    let hi := getReg s (0x31000 + m * 0x80 + r * 8 + 4)
    bitAt lo 3 && bitAt lo (if write then 1 else 2) && decide (fld lo 31 12 ≤ pg) && decide (pg ≤ fld hi 31 12)

/-- Page of SRAM word `w`. -/
def pageOf (w : Nat) : Nat := w / 512

/-- The first of `n` words from `w` that master `m` may not access. -/
def firstDenied (s : State) (m w n : Nat) (write : Bool) : Option Nat :=
  ((List.range n).map (w + ·)).find? fun x => !rgnAllows s m (pageOf x) write

/-- Counts a denied access and records the first (12 R295). -/
def noteDenied (m w : Nat) (write : Bool) (s : State) : State :=
  let s := bump (0x32000 + m * 8) s
  if regB s 0x32204 31 then s
  else setReg 0x32204 (pack 32 [(1, 31, 31), (b2n write, 4, 4), (m, 3, 0)]) (setReg 0x32200 (BitVec.ofNat 32 (w * 8)) s)

/-- The CCLKs in which the `n` accesses of master `m` waited at a shared port that another user took: at most 20 each, else open (12 R291,
R292). Log 102 (DESIGN CHOICE). -/
def noteConflicts (m n : Nat) (s : State) : State :=
  let (v, s) := draw s
  bumpN (v.toNat % (20 * n + 1)) (0x32100 + m * 8) s

/-- The same for the move and proof engines, whose waits have no bound (12 R290-R292). Log 102 (DESIGN CHOICE). -/
def noteWaits (m : Nat) (s : State) : State :=
  let (v, s) := draw s
  bumpN (v.toNat % 2 ^ 32) (0x32100 + m * 8) s

/-! ### Waiting for a bank group or a lent page -/

/-- The groups of words `w` to `w + n - 1` that are not ON. -/
def sleepers (s : State) (ws : List Nat) : List Nat := (ws.filter (asleep s)).filterMap bgOf |>.eraseDups

/-- A command whose access needs bank group `g` waits for it; the group is ON 8 us after the first access that needs it (11 R281). -/
def waitBg (g : Nat) (c : Option Cmd) (s : State) : State :=
  let due := match s.bgWait.find? (·.g == g) with | some w => w.due | none => s.cclk + 8 * cclkPerUs s.part.grade
  { s with bgWait := s.bgWait ++ [⟨g, due, c⟩] }

/-- A page lies in the interrupt-handler region of the active firmware slot: its first 64 KiB (17 R413). -/
def handlerPage (s : State) (pg : Nat) : Bool :=
  let h := if s.fw.active then 0x1D00 else 0x1C00
  decide (h ≤ pg) && decide (pg < h + 16)

/-- A word lies in the page that the proof engine has on loan (13 R336). Log 80 (DESIGN CHOICE). -/
def lentWord (s : State) (w : Nat) : Bool :=
  match s.sramProof with
  | some p => p.page == pageOf w && decide (p.page ≤ p.last) && !handlerPage s p.page
  | none => false

/-- The page under test is skipped and recorded (13 R336). -/
def skipPage (p : SramProof) (s : State) : State :=
  logRec 7 ((memId (p.page * 512)).getD 10) 0 0 (p.page * 4096)
    { s with sramProof := some { p with page := p.page + 1, attempts := 0, skipped := p.skipped + 1 } }

/-- An access interrupts the test of the lent page, which is restored within 2,500 CCLK, in a time the spec leaves open; after the
fourth attempt the page is skipped (13 R336). Log 80 (DESIGN CHOICE). -/
def interruptPage (s : State) : State :=
  match s.sramProof with
  | none => s
  | some p =>
    let (v, s) := draw s
    let s := advance (v.toNat % 2501) s
    if p.attempts + 1 < 4 then { s with sramProof := some { p with attempts := p.attempts + 1 } }
    else skipPage p s

/-! ### MEM_RD, MEM_WR and the raw SRAM forms -/

/-- Checks of 12 R288 after the length: reserved bits and range, then regions. Answers the status of the first failure and the state
that records a denial, one a command, of its first word denied. Log 14 (DEDUCED). Log 120 (DESIGN CHOICE). -/
def memChecks (c : Cmd) (bad : Bool) (w n : Nat) (write : Bool) (s : State) : Option (Byte × State) :=
  if bad || n == 0 || (List.range n).any (fun i => (memId (w + i)).isNone) then some (stBadArg, s)
  else match firstDenied s c.p.ap w n write with
    | some x => some (stDenied, noteDenied c.p.ap x write s)
    | none => if write && (List.range n).any (fun i => memId (w + i) == some 6 || memId (w + i) == some 9)
      then some (stDenied, s) else none

/-- Hands a checked access to `act`, or lets it wait for a bank group (11 R281) or a lent page (13 R336). `lent` marks an access that has
waited for a lent page. -/
def memAccess (c : Cmd) (lent : Bool) (w n : Nat) (act : State → State) (s : State) : State :=
  let ws := (List.range n).map (w + ·)
  match sleepers s ws with
  | g :: _ => waitBg g (some c) s
  | [] => if !lent && ws.any (lentWord s) then { s with lentWait := s.lentWait ++ [c] } else act (noteConflicts c.p.ap n s)

/-- Status of an access that has met poison or a lent page; poison comes first (13 Table 13.4). -/
def memStatus (poison lent : Bool) : Byte := if poison then stPoison else if lent then stLent else stOk

/-- MEM_RD (12 R287, R288). -/
def memRdRun (lent : Bool) (c : Cmd) (s : State) : State :=
  let w0 := payW c 0
  let a := fld w0 31 0
  let n := fld w0 40 32
  if payN c != 1 then refuse c stBadLen s
  else match memChecks c (!argClear c (BitVec.allOnes 24) || fld w0 63 41 != 0 || a % 8 != 0 || n > 255) (a / 8) n false s with
    | some (st, s) => refuse c st s
    | none => memAccess c lent (a / 8) n (fun s =>
        let (vs, ps, s) := readMems (a / 8) n 0 s
        reply c (memStatus (!ps.isEmpty) lent) (ps.headD 0) vs s) s

/-- MEM_WR (12 R287, R288). -/
def memWrRun (lent : Bool) (c : Cmd) (s : State) : State :=
  let w0 := payW c 0
  let a := fld w0 31 0
  let be : Byte := BitVec.ofNat 8 (fld w0 47 40)
  let n := payN c - 1
  if payN c < 2 then refuse c stBadLen s
  else match memChecks c (!argClear c (BitVec.allOnes 24) || fld w0 63 48 != 0 || fld w0 39 32 != 0 || a % 8 != 0 || be == 0)
      (a / 8) n true s with
    | some (st, s) => refuse c st s
    | none => memAccess c lent (a / 8) n (fun s =>
        let s := ((c.p.pay.drop 1).zipIdx).foldl (fun s p => writeMem (a / 8 + p.2) be p.1 s) s
        reply c (memStatus false lent) 0 [] s) s

/-- MEM_RAW_RD of SRAM words (13 R324, Table 13.5). -/
def memRawRdSram (lent : Bool) (c : Cmd) (s : State) : State :=
  let w0 := payW c 0
  let a := fld w0 31 0
  let n := fld w0 40 32
  if payN c != 1 then refuse c stBadLen s
  else match memChecks c (!argClear c (~~~(ones 22 22)) || fld w0 63 41 != 0 || a % 8 != 0 || n > 127) (a / 8) n false s with
    | some (st, s) => refuse c st s
    | none => memAccess c lent (a / 8) n (fun s =>
        let pairs := (List.range n).flatMap fun i =>
          match rawWord s (a / 8 + i) with
          | none => [0, ones 63 63]
          | some x => [x.data, x.chk.setWidth 64]
        reply c (memStatus false lent) 0 pairs s) s

/-- MEM_RAW_WR of SRAM words (13 R324, R325, Table 13.5). Log 23 (DESIGN CHOICE). -/
def memRawWrSram (lent : Bool) (c : Cmd) (s : State) : State :=
  let w0 := payW c 0
  let a := fld w0 31 0
  let n := (payN c - 1) / 2
  if payN c < 3 || payN c % 2 == 0 then refuse c stBadLen s
  else
    let pair := fun i => (payW c (1 + 2 * i), payW c (2 + 2 * i))
    match memChecks c (!argClear c (~~~(ones 22 22)) || fld w0 63 32 != 0 || a % 8 != 0 ||
        (List.range n).any (fun i => fld (pair i).2 63 40 != 0)) (a / 8) n true s with
    | some (st, s) => refuse c st s
    | none => memAccess c lent (a / 8) n (fun s =>
        let s := (List.range n).foldl (fun s i => storeMem (a / 8 + i) ⟨(pair i).1, (pair i).2.setWidth 40⟩ s) s
        reply c (memStatus false lent) 0 [] s) s

end Sys2Proof.Machine
end

