-- ==== Sys2Proof/Machine/Mailbox.lean ====
section
/-! DEFINITION. The mailbox: accesses of its two sides that share CCLKs (12 R297-R299). -/

namespace Sys2Proof.Machine

/-- Eight REFCLK periods, 51.2 ns, in CCLK (12 R299). -/
def busyTime (g : Grade) : Nat := cdiv (512 * cclkPerUs g) 10000

/-- A side is told of a collision: pin, status, counter (12 R299). -/
def mbxReport (sideB : Bool) (word : Nat) (s : State) : State :=
  let due := s.cclk + busyTime s.part.grade
  let s := { s with mbx := if sideB then { s.mbx with busyB := some due } else { s.mbx with busyA := some due } }
  let r := putF (putB (getReg s 0x200) (if sideB then 30 else 31) true) word 14 0
  bump (if sideB then 0x20C else 0x204) (setReg 0x200 r s)

/-- Accesses under way: those made so far, what a read has returned and which of it was poisoned, the first collided access told to
the side, and whether the lent page was reached. -/
structure MbxRun where
  x : MbxAcc
  i : Nat := 0
  vals : List Word := []
  bad : List Bool := []
  hit : Option Nat := none
  lent : Bool := false

/-- SRAM word of access `i` and the bytes it includes: half word by half word for the management window, else word by word (12 R297). -/
def mbxPlace (x : MbxAcc) (i : Nat) : Nat × Byte :=
  if x.byHalf then
    let h := x.halves + i
    (mboxBase + h / 2, if h % 2 = 1 then 0xf0 else 0x0f)
  else (mboxBase + x.word.toNat + i, if x.isRaw then 0xff else x.be)

/-- The words reached. -/
def mbxReach (x : MbxAcc) : List Nat := (List.range x.n).map fun i => (mbxPlace x i).1

/-- The word that access `i` of a write brings: a half word stands in both halves, a raw form carries each word with its code. -/
def mbxData (x : MbxAcc) (i : Nat) : Word :=
  if x.isRaw then nth x.data (2 * i) 0
  else
    let v := nth x.data i 0
    if x.byHalf then v.setWidth 32 ++ v.setWidth 32 else v

/-- The first word that the regions deny (12 R294). -/
def mbxBarred (s : State) (x : MbxAcc) : Option Nat := (mbxReach x).find? fun w => !rgnAllows s x.m (pageOf w) x.write

/-- One access: a lost write stores nothing, the data of a read is open under a collision (12 Table 12.6). -/
def mbxOne (lost open_ : Bool) (r : MbxRun) (s : State) : MbxRun × State :=
  let (w, be) := mbxPlace r.x r.i
  let next := { r with i := r.i + 1 }
  if r.x.write then
    (next, if lost then s
           else if r.x.isRaw then storeMem w ⟨nth r.x.data (2 * r.i) 0, (nth r.x.data (2 * r.i + 1) 0).setWidth 40⟩ s
           else writeMem w be (mbxData r.x r.i) s)
  else if open_ then
    let (v, s) := draw s
    ({ next with vals := r.vals ++ [v], bad := r.bad ++ [false] }, s)
  else if r.x.isRaw then
    let v := match rawWord s w with | none => [0, ones 63 63] | some x => [x.data, x.chk.setWidth 64]
    ({ next with vals := r.vals ++ v, bad := r.bad ++ [false] }, s)
  else
    let (v, b, s) := readMem w s
    ({ next with vals := r.vals ++ [v], bad := r.bad ++ [b] }, s)

/-- A collision is told to the side of these accesses. -/
def mbxTold (r : MbxRun) : MbxRun := { r with hit := r.hit.orElse fun _ => some r.i }

/-- One access of each side in one CCLK; `a` is side A's (12 Table 12.6). Log 15 (DESIGN CHOICE). -/
def mbxPair (a b : MbxRun) (s : State) : MbxRun × MbxRun × State :=
  let (w, be) := mbxPlace a.x a.i
  let (w', be') := mbxPlace b.x b.i
  let differ := (List.range 8).any fun i => be.getLsbD i && be'.getLsbD i && lane (mbxData a.x a.i) i != lane (mbxData b.x b.i) i
  let word := w - mboxBase
  let both := fun (a b : MbxRun) (lost openA openB : Bool) (s : State) =>
    let (a, s) := mbxOne false openA a s
    let (b, s) := mbxOne lost openB b s
    (a, b, s)
  if w != w' || be &&& be' == 0 || (!a.x.write && !b.x.write) || (a.x.write && b.x.write && !differ) then both a b false false false s
  else if a.x.write && b.x.write then both a (mbxTold b) true false false (mbxReport true word s)
  else
    let toldB := decide (b.x.checked ≥ a.x.checked)
    both (if toldB then a else mbxTold a) (if toldB then mbxTold b else b) false true true (mbxReport toldB word s)

/-- The accesses of a side that the CCLK grants: the first of the master whose turn it is (12 R297). The rotation is that of 01 R444. Log 15
(DESIGN CHOICE). -/
def mbxGrant (sideB : Bool) (rs : List MbxRun) (s : State) : Option Nat × State :=
  let rot := if sideB then s.mbx.rotB else s.mbx.rotA
  let cs := rs.zipIdx.filter fun r => r.1.x.sideB == sideB
  match cs.mergeSort fun a b => rotRank rot a.1.x.m.val ≤ rotRank rot b.1.x.m.val with
  | [] => (none, s)
  | r :: _ =>
    let n := (r.1.x.m.val + 1) % 11
    (some r.2, if cs.any fun y => y.1.x.m != r.1.x.m then
        { s with mbx := if sideB then { s.mbx with rotB := n } else { s.mbx with rotA := n } } else s)

/-- One CCLK: each side makes the access it grants (12 R297, R298). -/
def mbxCycle (rs : List MbxRun) (s : State) : List MbxRun × State :=
  let (ga, s) := mbxGrant false rs s
  let (gb, s) := mbxGrant true rs s
  let at_ := fun (g : Option Nat) => g.bind fun i => (rs[i]?).map fun r => (i, r)
  match at_ ga, at_ gb with
  | some (i, a), some (j, b) => let (a, b, s) := mbxPair a b s; ((rs.set i a).set j b, s)
  | some (i, r), none | none, some (i, r) => let (r, s) := mbxOne false false r s; (rs.set i r, s)
  | none, none => (rs, s)

/-- Bytes of a read's data that the access covers. -/
def mbxKeep (be : Byte) (v : Word) : Word := ofLanes fun i => if be.getLsbD i then lane v i else 0

/-- The half words read, as registers. -/
def mbxHalves (r : MbxRun) : List Reg :=
  r.vals.zipIdx.map fun y => if (mbxPlace r.x y.2).2 == 0xf0 then y.1.extractLsb' 32 32 else y.1.setWidth 32

/-- The command of an access has its number, and one of the PCIe function is owed a completion (14 R361). -/
def mbxReply (r : MbxRun) (op : Byte) (tag : BitVec 14) (st : Byte) (info : Nat) (pay : List Word) (s : State) : State :=
  let c : Cmd := { op := op, p := { ap := r.x.m, tag := tag }, id := s.nextId }
  reply c st info pay { s with nextId := s.nextId + 1, pcie := { s.pcie with owed := s.pcie.owed + b2n (r.x.m == 8) } }

/-- Answers accesses with a status: a command by its reply, MEM_RD naming the first poisoned or collided word (12 R299; 13 Table 13.4); a
window read by its data; the boundary-scan register by what it captures (18 R437). -/
def mbxEnd (r : MbxRun) (st : Byte) (s : State) : State :=
  match r.x.who with
  | .window =>
    if r.x.write then s else { s with pcie := { s.pcie with rdata := s.pcie.rdata ++ [mbxKeep r.x.be (nth r.vals 0 0)] } }
  | .scan => { s with svc := { s.svc with done := true, status := st, rdata := nth (mbxHalves r) 0 0 } }
  | .mem tag =>
    let info := match r.bad.idxOf? true with | some i => i | none => r.hit.getD 0
    mbxReply r (if r.x.write then 0x4B else 0x4A) tag st (if r.x.write then 0 else info) r.vals s
  | .mgmt tag =>
    mbxReply r (if r.x.write then 0x49 else 0x48) tag st 0 ((chunks 2 64 (mbxHalves r)).map fun y => nth y 0 0 ++ nth y 1 0) s
  | .raw tag => mbxReply r (if r.x.write then 0x4D else 0x4C) tag st 0 r.vals s

/-- Accesses made whole are answered; poison comes first, then a collision, then a lent page (13 Table 13.4). -/
def mbxAnswer (r : MbxRun) (s : State) : State :=
  mbxEnd r (if r.bad.contains true then stPoison else if r.hit.isSome then stCollide else if r.lent then stLent else stOk) s

/-- CCLK by CCLK until every access is made; accesses made whole are answered in the CCLK of their last. -/
def mbxCycles : Nat → List MbxRun → State → State
  | 0, _, s => s
  | k + 1, rs, s =>
    let (rs, s) := mbxCycle rs s
    let s := (rs.filter fun r => r.i ≥ r.x.n).foldl (fun s r => mbxAnswer r s) s
    match rs.filter fun r => r.i < r.x.n with
    | [] => s
    | rs => mbxCycles k rs (advance 1 s)

/-- The part makes these accesses: the boundary-scan register only while it is the current instruction (18 R437). -/
def mbxTakes (s : State) (x : MbxAcc) : Bool := x.who != .scan || s.svc.ir == 0x20

/-- The status that refuses accesses before any is made: a raw form while raw access is off, or one that the regions deny; the state has
counted the denial (12 R294, R295; 13 R324). -/
def mbxBad (s : State) (x : MbxAcc) : Option (Byte × State) :=
  if x.isRaw && !regB s 0x80000 31 then some (stDenied, s)
  else (mbxBarred s x).map fun w => (stDenied, noteDenied x.m w x.write s)

/-- MAILBOX_WINDOW_ACCESS: the accesses that masters of the two sides ask for in one CCLK, of the PCIe window and of commands (12
R297-R299). An access to a mailbox that is not ON returns BG6 to ON first (11 R281), and one to a lent page interrupts the test (13 R336).
The part serves it from step 4 of start-up (17 R407). Log 15 (DESIGN CHOICE). -/
def mailboxRun (xs : List MbxAcc) (s : State) : State :=
  if s.dev.st ≠ .run then s
  else
    let xs := xs.filter (mbxTakes s)
    let good := fun (x : MbxAcc) => (mbxBad s x).isNone
    let go := xs.filter good
    let s := xs.foldl (fun s x => match mbxBad s x with
      | some (st, s) => mbxEnd { x := { x with data := [] } } st s
      | none => s) s
    if go.isEmpty then s
    else
      let s := if bgMode s 6 != 0 then { advance (8 * cclkPerUs s.part.grade) s with bgCur := mdel s.bgCur 6 } else s
      let rs := go.map fun x => ({ x := x, lent := (mbxReach x).any (lentWord s) } : MbxRun)
      let s := if rs.any (·.lent) then interruptPage s else s
      let s := go.foldl (fun s x => noteConflicts x.m.val x.n s) s
      mbxCycles ((go.map (·.n)).foldl (· + ·) 0) rs s

/-- MBXBSY_PULSE_END: the busy pin of a side is released at the end of its pulse (12 R299). -/
def mbxbsyEndRun (sideB : Bool) (s : State) : State :=
  match (if sideB then s.mbx.busyB else s.mbx.busyA) with
  | none => s
  | some due =>
    let s := advanceTo due s
    { s with mbx := if sideB then { s.mbx with busyB := none } else { s.mbx with busyA := none } }

end Sys2Proof.Machine
end

