-- ==== Sys2Proof/Machine/Slots.lean ====
section
/-! DEFINITION. Commands not yet answered, and the slots of the reply stores that they hold (05 R129; 14 R347). -/

namespace Sys2Proof.Machine

/-- A profile has a stream lookup, and the associated-data words of a lookup (03 Tables 3.5, 3.7). -/
def profSe (ctl : Reg) : Bool := bitAt ctl 20
def lkAd (lk : Reg) : Nat := fld lk 15 12

/-! ### Commands that wait for their reply -/

/-- Commands of a channel's units that are not yet answered. -/
def chanCmds (k : Chan) : List Cmd :=
  k.upd.queue ++ (k.upd.job.map (·.cmd)).toList ++ k.pends.map (·.cmd) ++ k.parts.filterMap (fun p => p.2.cmd) ++
    (k.copy.map (·.cmd)).toList ++ k.resetting.toList

/-- The command that waits for an image save. -/
def saveCmd (x : Save) : Option Cmd := match x.who with | .reply c => some c | _ => none

/-- Every command but a search that has passed its check and has no reply yet; a command named twice counts once. -/
def waitingCmds (s : State) : List Cmd :=
  let l := s.ch.toList.flatMap chanCmds ++ s.fw.queue ++ s.fw.parked.map (·.cmd) ++ s.lentWait ++ s.bgWait.filterMap (·.cmd) ++
    s.qm.held.map (·.cmd) ++ (s.qm.range.map (·.cmd)).toList ++ s.remapRun.filterMap (·.cmd) ++ s.saves.filterMap saveCmd ++
    (s.tb.setPend.map (·.cmd)).toList ++ s.dev.darkReq.toList ++ s.dev.late ++ s.dev.echoes ++ s.qm.unit.queue ++ s.pool.unit.queue ++
    s.pool.asks ++ s.se.queue
  l.foldl (fun a c => if a.any (·.id == c.id) then a else a ++ [c]) []

/-- Searches of access point `ap` that wait for their reply. -/
def srchsOf (s : State) (ap : Ap) : List Srch := s.searches.filter fun q => q.mem.isNone && q.cmd.wq.isNone && q.cmd.p.ap == ap

/-- Something is still owed to access point `ap`. -/
def owes (s : State) (ap : Ap) : Bool :=
  !(srchsOf s ap).isEmpty || s.replies.any (·.ap == ap) || (waitingCmds s).any fun c => c.wq.isNone && c.p.ap == ap

/-! ### Slots (05 R129) -/

/-- Slots of 32 bytes that a reply of `n` payload words needs. Log 40 (DEDUCED). -/
def slotsFor (n : Nat) : Nat := cdiv (8 * (1 + n)) 32

/-- Payload words of the largest reply of a search: the full layout with the poison report (05 R129, Table 5.2). -/
def fullWords (q : Srch) : Nat :=
  q.prof.lk.foldl (fun n l => n + 1 + lkAd l) 0 + b2n (profSe q.prof.ctl) + (if q.cmd.op == 0x11 && argF q.cmd 13 13 == 1 then 10 else 0) + 1

/-- Payload words of the longest reply of a command whose packet tells it (09 R213; 10 R246, R258; 12 R287; 13 Table 13.5; 15 R379, R381).
-/
def replyLen (c : Cmd) : Nat :=
  match c.op.toNat with
  | 0x01 => payN c
  | 0x31 => if argF c 23 23 = 1 then 64 else 8
  | 0x3A | 0x3D => fld (payW c 0) 7 0
  | 0x48 => cdiv (fld (payW c 0) 38 32 + 1) 2
  | 0x4A => fld (payW c 0) 40 32
  | 0x4C => if argF c 22 22 == 1 then 0 else 2 * fld (payW c 0) 40 32
  | _ => 0

/-- Slots reserved for a command that is not yet answered: 13, and those that a longer reply needs once the command is the next to run
(05 R129; 14 R347). Log 43 (DEDUCED). -/
def slotsOf (s : State) (c : Cmd) : Nat :=
  if (s.fw.queue.drop 1 ++ s.qm.unit.queue.drop 1 ++ s.se.queue.drop 1).any (·.id == c.id) then 13
  else max 13 (slotsFor (min 255 (replyLen c)))

/-- Slots of port group `g` that searches, commands and replies hold. Log 40 (DEDUCED). -/
def slotsUsed (s : State) (g : Fin 8) : Nat :=
  let ap : Ap := ⟨g.val, by omega⟩
  (srchsOf s ap).foldl (fun n q => n + slotsFor (fullWords q)) 0 +
    ((waitingCmds s).filter fun c => c.wq.isNone && c.p.ap == ap).foldl (fun n c => n + slotsOf s c) 0 +
    (s.replies.filter (·.ap == ap)).foldl (fun n r => n + (slotsFor r.pay.length - r.sent)) 0

/-- Command credits granted and not yet used. -/
def pledges (p : Pg) : Nat := (p.cmdGrant - p.cmdNum).toNat

/-- The command next to run waits while the slots that its reply needs beyond its 13 cannot all be reserved (14 R347). Log 43 (DEDUCED). -/
def slotsShort (s : State) (c : Cmd) : Bool :=
  c.wq.isNone && decide (c.p.ap.val < 8) && decide (13 < slotsFor (min 255 (replyLen c))) &&
    decide (4096 < slotsUsed s (pgn c.p.ap) + 13 * pledges s.pg[pgn c.p.ap])

end Sys2Proof.Machine
end

