-- ==== Sys2Proof/Machine/Queues.lean ====
section
/-! DEFINITION. Queues, events, the spillway and the sluice pins (10 R234-R261). -/

namespace Sys2Proof.Machine

/-! ### Interrupt requests (10 R255, R257) -/

/-- The MSI-X vector that a source requests: class 0-15 of the queues, 16 the spillway (10 R255). -/
def queueVector (s : State) (src : Nat) : Option Nat :=
  let p := regB s 0x7000C src
  if src < 16 then
    let r := getReg s (0x70108 + src * 0x10)
    if p && bitAt r 29 then some (fld r 5 0) else none
  else
    let r := getReg s 0x71000
    if p && bitAt r 29 then some (fld r 26 21) else none

/-- Applies a change, and queues the vectors of the sources that begin to request with it: a source requests once until its pending bit is
cleared (14 R362). -/
def withIrq (f : State → State) (s : State) : State :=
  let s := f s
  let new := (List.range 17).filterMap fun i => if s.pcie.asked.getLsbD i then none else queueVector s i
  let asked : BitVec 17 := maskOf 17 17 fun i => regB s 0x7000C i && (s.pcie.asked.getLsbD i || (queueVector s i).isSome)
  { s with pcie := { s.pcie with reqs := s.pcie.reqs ++ new, asked := asked } }

/-- Sets pending bit `n` of Q_IRQ_PEND. -/
def setPend (n : Nat) (s : State) : State := withIrq (setRegF 0x7000C n n 1) s

/-- Interrupt line `i` is low: a pending source drives it, while the core domain runs (10 R255; 17 Table 17.7; 18 Table 18.3 IRQ_N). -/
def irqLow (s : State) (i : Nat) : Bool :=
  running s && ((List.range 16).any (fun n => regB s 0x7000C n && regF s (0x70108 + n * 0x10) 28 27 == i + 1) ||
    (regB s 0x7000C 16 && regF s 0x71000 28 27 == i + 1))

/-! ### Pointers (10 R243) -/

/-- Words held. -/
def depth (d : QDesc) : Nat := (d.wr + 2 ^ (d.k + 1) - d.rd) % 2 ^ (d.k + 1)

/-- SRAM word of pointer `p`. -/
def qAddr (d : QDesc) (p : Nat) : Nat := queueBase + d.base + p % 2 ^ d.k

/-- Words committed before CCLK `c` and not yet taken: what a take in `c` may reach (10 R243). -/
def visible (d : QDesc) (c : Nat) : Nat := depth d - (if d.cAt = c then d.cN else 0)

/-- Depth at the start of CCLK `c` (10 R243). -/
def startDepth (d : QDesc) (c : Nat) : Nat := visible d c + (if d.pAt = c then d.pN else 0)

/-- Room for a commit in CCLK `c`: that at its start, less what an earlier commit of it has taken (10 R243, R244). -/
def startRoom (d : QDesc) (c : Nat) : Nat := 2 ^ d.k - (depth d + if d.pAt = c then d.pN else 0)

/-! ### Watermarks and notes (10 R254, R255) -/

/-- The high state after a change of depth or marks (10 R254). -/
def nextHigh (s : State) (d : QDesc) : Bool :=
  let l := regF s (0x70104 + d.cls * 0x10) 15 0
  let h := max (2 ^ d.k - regF s (0x70100 + d.cls * 0x10) 15 0) (l + 1)
  if depth d ≥ h then true else if depth d ≤ l then false else d.high

/-- Brings a queue's high state, notes and pending bits up to date as of CCLK `n`; `empty` tells that it was empty at the start of the CCLK.
Log 103 (DESIGN CHOICE). -/
def settleQ (n q : Nat) (empty : Bool) (s : State) : State :=
  let d := qDesc s q
  if !d.enable then s
  else
    let hi := nextHigh s d
    let ne := empty && depth d != 0
    let up := hi && !d.high
    let r := getReg s (0x70108 + d.cls * 0x10)
    let s := setQDesc q { d with high := hi } s
    let s := if (ne && bitAt r 30) || (up && bitAt r 31) then setPend d.cls s else s
    if ((ne && bitAt r 25) || (up && bitAt r 26)) && fld r 23 6 != q then
      postAt n 12 0 (BitVec.ofNat 18 (fld r 23 6))
        { type := 0x31, source := BitVec.ofNat 18 q, w1 := pack 64 [(b2n ne, 63, 63), (b2n up, 62, 62), (depth d, 16, 0)] } s
    else s

/-- Every queue of a class whose marks or settings changed is evaluated again. -/
def settleClass (cls : Nat) (s : State) : State :=
  s.qm.desc.foldl (fun s p => if (qDesc s p.1).cls = cls then settleQ s.cclk p.1 false s else s) s

/-- The queues touched in a CCLK are evaluated, after both the commit and the take of that CCLK (10 R244). -/
def settleTouched (s : State) : State :=
  s.qm.touched.foldl (fun s x => settleQ s.qm.touchAt x.1 x.2 s) { s with qm := { s.qm with touched := [] } }

/-- A queue is touched in CCLK `n`, before which the queues touched in an earlier one are evaluated. -/
def touchQ (n q : Nat) (s : State) : State :=
  let s := if s.qm.touchAt = n then s else settleTouched s
  let empty := startDepth (qDesc s q) n == 0
  { s with qm := { s.qm with touchAt := n,
                             touched := if s.qm.touched.any (·.1 == q) then s.qm.touched else s.qm.touched ++ [(q, empty)] } }

/-- The next row may act on a queue in the present CCLK, so that the queues touched in it are not evaluated yet. Log 103 (DESIGN CHOICE). -/
def moreQ (s : State) : Bool :=
  moreNow s || match s.pending with
    | .eventCommit :: _ | .eventSpill :: _ | .qPushHeldComplete _ :: _ | .workItemRelease :: _ => true
    | _ => false

/-- The queues touched are evaluated once no further row may act on them in their CCLK; done after every command. -/
def settleQs (s : State) : State := if moreQ s && s.qm.touchAt = s.cclk then s else settleTouched s

/-! ### Commit and take (10 R243, R244) -/

/-- A work queue with an item and no entry among the heads gets one (10 R252). -/
def noteHead (q : Nat) (t : Nat) (s : State) : State :=
  let d := qDesc s q
  if d.work && depth d != 0 && (mget s.qm.heads q).isNone then
    { s with qm := { s.qm with heads := mset s.qm.heads q (some t) } }
  else s

/-- Commits an item in CCLK `c`; its room has been checked. -/
def commitItem (q : Nat) (item : List Word) (c : Nat) (s : State) : State :=
  let s := touchQ c q s
  let d := qDesc s q
  let s := (item.zipIdx).foldl (fun s x => writeMem (qAddr d (d.wr + x.2)) 0xff x.1 s) s
  let cN := (if d.cAt = c then d.cN else 0) + item.length
  let s := setQDesc q { d with wr := (d.wr + item.length) % 2 ^ (d.k + 1), cAt := c, cN := cN } s
  noteHead q (timeAt (c + 1) s) s

/-- Moves the read pointer over `n` words in CCLK `c`. -/
def dropWords (q n left c : Nat) (s : State) : State :=
  let s := touchQ c q s
  let d := qDesc s q
  let pN := (if d.pAt = c then d.pN else 0) + n
  setQDesc q { d with rd := (d.rd + n) % 2 ^ (d.k + 1), rdLeft := left, pAt := c, pN := pN } s

/-- Length of an item by its word 0; a poisoned word 0 counts as an item of one word (10 R239, R248). -/
def itemLen (v : Word) (poison : Bool) : Nat := if poison then 1 else fld v 63 61 + 1

/-- Length of the item whose word 0 is at pointer `p`, without a read being made. -/
def peekLen (s : State) (d : QDesc) (p : Nat) : Nat :=
  match rawWord s (qAddr d p) with
  | none => 1
  | some x => let r := decodeWord x; itemLen r.1 (r.2.1 == .poisoned)

/-- Words of the whole items at the head that fit `max` and lie in `avail` (10 R246); `used` counts so far. -/
def wholeFit (s : State) (d : QDesc) (avail max : Nat) : Nat → Nat → Nat → Nat
  | 0, used, _ => used
  | fuel + 1, used, left =>
    let n := if left ≠ 0 then left else peekLen s d (d.rd + used)
    if used + n ≤ max && used + n ≤ avail then wholeFit s d avail max fuel (used + n) 0 else used

/-- Takes `n` words: the words, whether any was poisoned, the words left of the current item (10 R247, R248). -/
def takeWords (d : QDesc) : Nat → Nat → Nat → State → List Word × Bool × Nat × State
  | 0, _, left, s => ([], false, left, s)
  | n + 1, p, left, s =>
    let (v, bad, s) := readMem (qAddr d p) s
    let left := if left = 0 then itemLen v bad - 1 else left - 1
    let (vs, bads, left, s) := takeWords d n (p + 1) left s
    (v :: vs, bad || bads, left, s)

/-! ### The unit (15 R373) -/

/-- A command that finds no place in its unit's queue is refused (15 R373). -/
def noPlace (x : Option Cmd) (s : State) : State :=
  match x with
  | some c => refuse c stFull s
  | none => s

/-- A queue command joins the queue manager's queue of 64 (15 Table 15.2). -/
def qmJoin (c : Cmd) (s : State) : State :=
  let (u, x) := s.qm.unit.join 64 c
  noPlace x { s with qm := { s.qm with unit := u } }

/-- Reply of a unit that runs a command in CCLK `n`. -/
def replyAt (n : Nat) (c : Cmd) (st : Byte) (info : Nat) (pay : List Word) (s : State) : State :=
  sendReply c (mkReply c st info pay n) s

/-! ### Q_POP, Q_SKIP, Q_FLUSH (10 R246-R250) -/

/-- Q_POP, taken in CCLK `n` (10 R246-R248). -/
def qPopRun (n : Nat) (c : Cmd) (s : State) : State :=
  let q := argF c 17 0
  let d := qDesc s q
  match firstBad [(payN c != 1, stBadLen), (argF c 23 19 != 0 || fld (payW c 0) 63 8 != 0 || !d.enable || d.work, stBadArg)] with
  | some st => replyAt n c st 0 [] s
  | none =>
    let mx := fld (payW c 0) 7 0
    let av := visible d n
    let k := if argF c 18 18 = 1 then wholeFit s d av mx 256 0 d.rdLeft else min mx av
    let (vs, bad, left, s) := takeWords d k d.rd d.rdLeft s
    let s := dropWords q k left n s
    let s := if bad then bump 0x70028 s else s
    let d := qDesc s q
    replyAt n c (if bad then stPoison else stOk) (depth d + b2n (nextHigh s d) * 2 ^ 17 + b2n d.spilled * 2 ^ 18) vs s

/-- Q_SKIP, taken in CCLK `n` (10 R249). -/
def qSkipRun (n : Nat) (c : Cmd) (s : State) : State :=
  let q := argF c 17 0
  let d := qDesc s q
  match firstBad [(payN c != 0, stBadLen), (argF c 23 18 != 0 || !d.enable || d.work, stBadArg)] with
  | some st => replyAt n c st 0 [] s
  | none =>
    let av := visible d n
    if av = 0 then replyAt n c stOk 0 [] s
    else
      let (len, s) := if d.rdLeft ≠ 0 then (d.rdLeft, s)
        else let (v, bad, s) := readMem (qAddr d d.rd) s; (itemLen v bad, s)
      let k := min len av
      replyAt n c stOk k [] (dropWords q k 0 n s)

/-- The write port is writing the item at the head of the event store to queue `q` in CCLK `n`: one that it may have started by then, a
compact item in the CCLK of its commit too, or one that lacked room once (10 R245, R250). Log 70 (DEDUCED). -/
def beingWritten (s : State) (q n : Nat) : Bool :=
  match s.qm.staged with
  | x :: _ => x.q.toNat == q && x.tries ≤ 1 &&
    (x.tries == 1 || decide (max (x.at_ + 1) s.qm.evFree ≤ n))
  | [] => false

/-- The effects of a flush of queue `q` (10 R250). Log 70 (DEDUCED). -/
def flushQ (q n : Nat) (s : State) : State :=
  let s := touchQ n q s
  let d := qDesc s q
  let s := setQDesc q { d with rd := d.wr, rdLeft := 0, spilled := false, pAt := n,
                               pN := (if d.pAt = n then d.pN else 0) + depth d } s
  let s := { s with qm := { s.qm with heads := mdel s.qm.heads q } }
  let s := if beingWritten s q n then bump 0x70020 { s with qm := { s.qm with staged := s.qm.staged.drop 1, evFree := n + 1 } } else s
  let (mine, rest) := s.qm.held.partition fun h => h.q.toNat == q
  mine.foldl (fun s h => replyAt n h.cmd stFull 0 [] s) { s with qm := { s.qm with held := rest } }

/-- Q_FLUSH, taken in CCLK `n` (10 R250). Log 70 (DEDUCED). -/
def qFlushRun (n : Nat) (c : Cmd) (s : State) : State :=
  let q := argF c 17 0
  let d := qDesc s q
  match firstBad [(payN c != 0, stBadLen), (argF c 23 18 != 0 || !d.enable, stBadArg)] with
  | some st => replyAt n c st 0 [] s
  | none => replyAt n c stOk (depth d) [] (flushQ q n s)

/-! ### Q_PUSH (10 R251) -/

/-- Opcodes that a work item may carry (10 R251). -/
def workOpcodes : List Byte := [0x10, 0x12, 0x20, 0x22, 0x23, 0x24, 0x25, 0x28, 0x29, 0x2A, 0x30, 0x32]

/-- Word 0 of a work item is malformed (10 Table 10.4, R251). -/
def workWordBad (w : Word) : Bool :=
  let wh := fld w 51 50
  fld w 60 59 != 2 || fld w 58 56 != 0 || fld w 49 48 != 0 || wh == 3 ||
    (wh == 0 && fld w 47 0 != 0) ||
    (wh == 1 && (fld w 31 30 != 0 || decide (fld w 29 0 ≥ 1000000000))) ||
    (wh == 2 && fld w 47 32 != 0)

/-- Q_PUSH, taken in CCLK `n` (10 R251). -/
def qPushRun (n : Nat) (c : Cmd) (s : State) : State :=
  let q := argF c 17 0
  let d := qDesc s q
  let w := payW c 0
  let h := payW c 1
  match firstBad [(payN c != fld w 63 61 + 1 || payN c < 2, stBadLen),
      (argF c 23 18 != 0 || !d.enable || !d.work || workWordBad w ||
        !workOpcodes.contains (BitVec.ofNat 8 (fld h 63 56)) || fld h 31 24 + 1 != fld w 63 61, stBadArg)] with
  | some st => replyAt n c st 0 [] s
  | none =>
    if startRoom d n ≥ payN c && s.qm.held.all (·.q.toNat != q) then
      let s := commitItem q c.p.pay n s
      replyAt n c stOk (depth (qDesc s q)) [] s
    else
      let due := n + nsToCclk s.part.grade (1000 * regF s 0x70000 15 0)
      { s with qm := { s.qm with held := s.qm.held ++ [⟨c, BitVec.ofNat 18 q, c.p.pay, due⟩] } }

/-- Removes the first held push of queue `q`. -/
def dropHeld (q : BitVec 18) : List HeldPush → List HeldPush
  | [] => []
  | h :: t => if h.q = q then t else h :: dropHeld q t

/-- The words of an event as committed; `full` gives the six-word form, `sp` the `spilled` bit (10 R240, Table 10.4). -/
def eventWords (e : Event) (full sp : Bool) : List Word :=
  let w0 : Word := pack 64 [(if full then 5 else 1, 63, 61), (b2n full, 60, 59), (b2n sp, 58, 58), (e.type.toNat, 55, 48),
    (e.source.toNat, 47, 30), (tNs e.t, 29, 0)]
  if full then [w0, e.w1, e.w2, e.w3, e.w4, pack 64 [(tSec e.t, 63, 16)]] else [w0, e.w1]

/-! ### The spillway (10 R257-R259) -/

/-- Bank A is the fill bank. -/
def fillIsA (m : Qm) : Bool := m.bankA.st == .fill

/-- Replaces the banks. -/
def setBanks (a b : Bank) (s : State) : State := { s with qm := { s.qm with bankA := a, bankB := b } }

/-- The fill bank becomes READY and the other bank the fill bank (10 R257). -/
def swapBanks (s : State) : State :=
  let s := if fillIsA s.qm then setBanks { s.qm.bankA with st := .ready } ⟨.fill, 0, 0⟩ s
    else setBanks ⟨.fill, 0, 0⟩ { s.qm.bankB with st := .ready } s
  if regB s 0x71000 31 then setPend 16 s else s

/-- Writes the record into the fill bank, which has room. -/
def writeRecord (x : SpillItem) (s : State) : State :=
  let a := fillIsA s.qm
  let b := if a then s.qm.bankA else s.qm.bankB
  let w0 : Word := pack 64 [(x.reason.toNat, 63, 62), (s.qm.dropped, 47, 32), (x.q.toNat, 17, 0)]
  let s := writeMems (spillBase + (if a then 0 else 0x2000) + b.words) (w0 :: eventWords x.ev true false) s
  let b' := { b with words := b.words + 7 }
  let s := if a then setBanks b' s.qm.bankB s else setBanks s.qm.bankA b' s
  let s := addStat 0x70018 1 { s with qm := { s.qm with dropped := 0 } }
  if b.words = 0 && regB s 0x71000 30 then setPend 16 s else s

/-- SPILL_POP, taken in CCLK `n` (10 R259). -/
def spillPopRun (n : Nat) (c : Cmd) (s : State) : State :=
  match firstBad [(payN c != 1, stBadLen), (argF c 23 1 != 0 || fld (payW c 0) 63 8 != 0, stBadArg)] with
  | some st => replyAt n c st 0 [] s
  | none =>
    let ready := s.qm.bankA.st == .ready || s.qm.bankB.st == .ready
    let f := if fillIsA s.qm then s.qm.bankA else s.qm.bankB
    let s := if argF c 0 0 = 1 && !ready && f.words != 0 then swapBanks s else s
    let f := if fillIsA s.qm then s.qm.bankA else s.qm.bankB
    let fillBit := b2n (f.words != 0) * 2 ^ 14
    let aReady := s.qm.bankA.st == .ready
    let b := if aReady then s.qm.bankA else s.qm.bankB
    if b.st != .ready then replyAt n c stOk fillBit [] s
    else
      let k := 7 * min (fld (payW c 0) 7 0 / 7) ((b.words - b.taken) / 7)
      let (vs, ps, s) := readMems (spillBase + (if aReady then 0 else 0x2000) + b.taken) k 0 s
      let left := b.words - b.taken - k
      let b' : Bank := if left = 0 then ⟨.empty, 0, 0⟩ else { b with taken := b.taken + k }
      let s := if aReady then setBanks b' s.qm.bankB s else setBanks s.qm.bankA b' s
      replyAt n c (if ps.isEmpty then stOk else stPoison) (left + fillBit + b2n (left != 0) * 2 ^ 15) vs s

/-- Runs a queue command in CCLK `n` (15 Table 15.2). -/
def qmExec (n : Nat) (c : Cmd) (s : State) : State :=
  match c.op.toNat with
  | 0x39 => qPushRun n c s
  | 0x3A => qPopRun n c s
  | 0x3B => qSkipRun n c s
  | 0x3C => qFlushRun n c s
  | _ => spillPopRun n c s

/-- The queue manager takes its commands, one per CCLK, as far as the present CCLK goes; one whose reply lacks slots waits (14 R347). -/
def qmTake : Nat → State → State
  | 0, s => s
  | k + 1, s =>
    match s.qm.unit.queue with
    | [] => s
    | c :: t =>
      let n := max s.qm.unit.free c.chk
      if n > s.cclk || slotsShort s c then s
      else qmTake k (qmExec n c { s with qm := { s.qm with unit := { s.qm.unit with queue := t, free := n + 1 } } })

/-- The queue manager goes on in the present CCLK. -/
def qmServe (s : State) : State := qmTake 64 s

/-- Q_PUSH_HELD_COMPLETE: the oldest held push of a queue commits in the first CCLK with room (10 R244, R251). Log 71 (DEDUCED). -/
def qPushHeldCompleteRun (q : BitVec 18) (s : State) : State :=
  match s.qm.held.find? (·.q == q) with
  | none => s
  | some h =>
    let d := qDesc s q.toNat
    let n := if startRoom d s.cclk ≥ h.item.length then s.cclk else s.cclk + 1
    if 2 ^ d.k - depth d ≥ h.item.length && n ≤ h.due then
      let s := advanceTo n s
      let s := commitItem q.toNat h.item n { s with qm := { s.qm with held := dropHeld q s.qm.held } }
      replyAt n h.cmd stOk (depth (qDesc s q.toNat)) [] s
    else s

/-- The held push of queue `q` whose limit ends first. -/
def firstDue (q : BitVec 18) (l : List HeldPush) : Option HeldPush :=
  (l.filter (·.q == q)).foldl (fun r h => match r with | some x => if h.due < x.due then some h else r | none => some h) none

/-- Q_PUSH_TIMEOUT: the hold limit of a held push ends without room for it (10 R251). Log 71 (DEDUCED). -/
def qPushTimeoutRun (q : BitVec 18) (s : State) : State :=
  match firstDue q s.qm.held with
  | none => s
  | some h =>
    let d := qDesc s q.toNat
    if 2 ^ d.k - depth d ≥ h.item.length && s.cclk < h.due && (s.qm.held.find? (·.q == q)).any (·.cmd.id == h.cmd.id) then s
    else
      let s := advanceTo h.due s
      replyAt s.cclk h.cmd stQFullTimeout 0 [] { s with qm := { s.qm with held := s.qm.held.filter (·.cmd.id != h.cmd.id) } }

/-! ### Event commit and spill (10 R239-R245) -/

/-- A queue takes no events: disabled, a work queue, or allowing no event form (10 R245). -/
def noEvents (d : QDesc) : Bool := !d.enable || d.work || fld d.items 1 0 == 0

/-- With the staging store empty, the clock moves on to the next event that will be offered. -/
def awaitEvent (s : State) : State :=
  match s.qm.staged, s.qm.soon with
  | [], x :: _ => offerSoon (advanceTo x.at_ s)
  | _, _ => s

/-- EVENT_COMMIT: the staging store's head is committed, or finds no room (10 R245); a flush taken meanwhile may have cut it (10 R250). -/
def eventCommitRun (s : State) : State :=
  let s := awaitEvent s
  match s.qm.staged with
  | [] => s
  | x :: _ =>
    let d := qDesc s x.q.toNat
    if noEvents d || x.tries ≥ 2 then s
    else
      let full := bitAt d.items 1
      let s := qmServe (advanceTo (max (x.at_ + 1) s.qm.evFree + (if full && x.tries = 0 then 1 else 0)) s)
      let d := qDesc s x.q.toNat
      let n := s.cclk
      let rest := s.qm.staged.drop 1
      if s.qm.staged.head? != some x then s
      else if startRoom d n < (if full then 6 else 2) then
        { s with qm := { s.qm with staged := { x with tries := x.tries + 1 } :: rest, evFree := n + 1 } }
      else
        let s := { s with qm := { s.qm with staged := rest, evFree := n + 1 } }
        let s := setQDesc x.q.toNat { d with spilled := false } s
        addStat 0x70010 1 (commitItem x.q.toNat (eventWords x.ev full d.spilled) n s)

/-- EVENT_SPILL: the head goes to the spillway, its queue taking no events or having lacked room in two CCLK (10 R245). -/
def eventSpillRun (s : State) : State :=
  let s := awaitEvent s
  match s.qm.staged with
  | [] => s
  | x :: t =>
    let d := qDesc s x.q.toNat
    if noEvents d || x.tries ≥ 2 then
      let s := advanceTo (if x.tries ≥ 2 then s.cclk else max (x.at_ + 1) s.qm.evFree) s
      spill x.ev x.q (if noEvents d then 1 else 0) { s with qm := { s.qm with staged := t } }
    else s

/-- SPILLWAY_WRITE: the spillway's write port handles the event at the head of its staging store (10 R257). -/
def spillwayWriteRun (s : State) : State :=
  match s.qm.spill with
  | [] => s
  | x :: _ =>
    let s := qmServe (advanceTo (max (x.at_ + 1) s.qm.spwFree + 1) s)
    let s := { s with qm := { s.qm with spill := s.qm.spill.drop 1, spwFree := s.cclk + 1 } }
    let f := if fillIsA s.qm then s.qm.bankA else s.qm.bankB
    let o := if fillIsA s.qm then s.qm.bankB else s.qm.bankA
    if f.words + 7 ≤ 8192 then writeRecord x s
    else if o.st = .empty then writeRecord x (swapBanks s)
    else bumpDrop { s with qm := { s.qm with dropped := min 65535 (s.qm.dropped + 1) } }

/-- The spillway holds off its sluice groups (10 R257). -/
def spwHold (s : State) : Bool :=
  let f := if fillIsA s.qm then s.qm.bankA else s.qm.bankB
  let o := if fillIsA s.qm then s.qm.bankB else s.qm.bankA
  o.st == .ready && decide (8192 - f.words < regF s 0x71000 13 0)

/-- `free_lo` and `free_hi` of DEV_BUF_FREE (12 Table 12.11). -/
def freeLo (s : State) : Nat := if s.pool.rebuild then 0 else s.pool.lo.n
def freeHi (s : State) : Nat := if s.pool.rebuild || bgMode s 5 != 0 then 0 else s.pool.hi.n

/-- SLUICE_N[g] is released (10 R256). -/
def sluiceHold (s : State) (g : Nat) : Bool :=
  let r := getReg s (0x72000 + g * 4)
  !running s || !bitAt r 31 || bitAt r 28 ||
    s.qm.desc.any (fun p => p.2.enable && p.2.slEn && p.2.sluice == g && p.2.high) ||
    (bitAt r 30 && spwHold s) || (bitAt r 29 && decide (freeLo s + freeHi s < fld r 15 0))

/-! ### Q_CFG (10 R236-R238) -/

/-- The descriptor word of a queue (10 Table 10.1). -/
def descWord (d : QDesc) : Word :=
  if !d.enable then 0
  else pack 64 [(1, 63, 63), (b2n d.work, 62, 62), (d.k, 61, 57), (d.items.toNat, 56, 54), (d.base, 51, 32), (d.cls, 31, 28),
    (b2n d.slEn, 27, 27), (d.sluice, 26, 24), (d.replyQ.toNat, 23, 6)]

/-- The state word of a queue (10 Table 10.3). -/
def stateWord (d : QDesc) : Word :=
  pack 64 [(d.wr, 63, 47), (d.rd, 46, 30), (d.rdLeft, 29, 27), (b2n d.spilled, 26, 26), (b2n d.high, 25, 25), (depth d, 16, 0)]

/-- The descriptor a payload word spells. -/
def descOf (w : Word) (ap : Ap) : QDesc :=
  { enable := bitAt w 63, work := bitAt w 62, k := fld w 61 57, items := BitVec.ofNat 3 (fld w 56 54), base := fld w 51 32,
    cls := fld w 31 28, slEn := bitAt w 27, sluice := fld w 26 24, replyQ := BitVec.ofNat 18 (fld w 23 6), ap := ap }

/-- Largest item that `items` allows, in words (10 R237). -/
def largestItem (d : QDesc) : Nat := if bitAt d.items 2 then 8 else if bitAt d.items 1 then 6 else 2

/-- A region of words `b` to `b + n - 1` overlaps an enabled queue outside queues `lo` to `hi`. -/
def overlaps (s : State) (b n lo hi : Nat) : Bool :=
  s.qm.desc.any (fun p => p.2.enable && !(decide (lo ≤ p.1) && decide (p.1 ≤ hi)) &&
    decide (p.2.base < b + n) && decide (b < p.2.base + 2 ^ p.2.k)) ||
  (List.range (n / 4)).any (fun i =>
    let q := b / 4 + i
    !(decide (lo ≤ q) && decide (q ≤ hi)) && (mget s.qm.desc q).isNone)

/-- Queue `q` is enabled and the descriptor would change what an enabled queue keeps (10 R237). -/
def moves (s : State) (q : Nat) (d : QDesc) : Bool :=
  let o := qDesc s q
  o.enable && d.enable && (o.work != d.work || o.k != d.k || o.items != d.items || o.base != d.base)

/-- The ST_BADARG checks of a descriptor that enables `count` queues from `q` (10 R237, R234). -/
def enableBad (s : State) (q count step : Nat) (d : QDesc) : Bool :=
  let z := 2 ^ d.k
  d.k < 2 || d.k > 16 || (!d.work && d.replyQ != 0) || d.items == 0 ||
    (bitAt d.items 2 && fld d.items 1 0 != 0) || bitAt d.items 2 != d.work ||
    d.base % z != 0 || (decide (count > 1) && (decide (step < z) || step % z != 0)) ||
    decide (d.base + (count - 1) * step + z > 1048576) ||
    (List.range count).any (fun i => overlaps s (d.base + i * step) z q (q + count - 1)) ||
    (List.range count).any (fun i => moves s (q + i) { d with base := d.base + i * step })

/-- The checks of a Q_CFG that writes (10 R237). -/
def qCfgBad (c : Cmd) (s : State) : Option Byte :=
  let q := argF c 17 0
  let w := payW c 0
  let r := payW c 1
  let range := payN c == 2
  let count := if range then fld r 50 32 else 1
  let step := if range then fld r 19 0 else 0
  let d := descOf w c.p.ap
  firstBad [(payN c != 1 && payN c != 2, stBadLen),
    (argF c 23 19 != 0 || fld w 53 52 != 0 || fld w 5 0 != 0 || (range && (fld r 63 51 != 0 || fld r 31 20 != 0)) ||
      count == 0 || decide (q + count - 1 > 262143) || (!d.enable && (w != 0 || step != 0)) ||
      (d.enable && enableBad s q count step d), stBadArg),
    (d.enable && decide (2 ^ d.k < largestItem d), stQSize)]

/-- Writes one descriptor (10 R238). -/
def writeDesc (q : Nat) (d : QDesc) (s : State) : State :=
  let o := qDesc s q
  if !d.enable then
    let s := if o.enable then settleTouched (flushQ q s.cclk s) else s
    setQDesc q { d with base := 0, k := 0, items := 0, spilled := (qDesc s q).spilled } s
  else if o.enable then
    settleQ s.cclk q false (setQDesc q { o with bad := false, cls := d.cls, slEn := d.slEn, sluice := d.sluice, replyQ := d.replyQ, ap := d.ap } s)
  else setQDesc q { d with spilled := o.spilled } s

/-- A Q_CFG enables a queue whose region lies in bank group 4, which is not ON (11 R281, Table 11.7). -/
def needsBg4 (c : Cmd) (s : State) : Bool :=
  let d := descOf (payW c 0) c.p.ap
  let r := payW c 1
  let last := if payN c = 2 then d.base + (fld r 50 32 - 1) * fld r 19 0 else d.base
  d.enable && bgMode s 4 != 0 && decide (last + 2 ^ d.k > 524288)

/-- Q_CFG with `read` = 0 (10 R236-R238). One that enables a queue in a bank group that is not ON returns the group to ON, and completes
with it (11 R281). -/
def qCfgRun (c : Cmd) (s : State) : State :=
  match qCfgBad c s with
  | some st => refuse c st s
  | none =>
    let q := argF c 17 0
    let d := descOf (payW c 0) c.p.ap
    if needsBg4 c s then waitBg 4 (some c) s
    else if payN c = 1 then reply c stOk 0 [] (writeDesc q d s)
    else { s with qm := { s.qm with range := some ⟨c, q, q + fld (payW c 1) 50 32 - 1, d, fld (payW c 1) 19 0⟩ } }

/-- Q_CFG with `read` = 1 (10 R236); a poisoned descriptor is returned as zero with ST_POISON (13 Table 13.4). -/
def qCfgReadRun (c : Cmd) (s : State) : State :=
  let d := qDesc s (argF c 17 0)
  match firstBad [(payN c != 0, stBadLen), (argF c 23 19 != 0, stBadArg)] with
  | some st => refuse c st s
  | none =>
    if d.bad then reply c stPoison 0 [0, 0] (metPoison 10 (argF c 17 0) (argF c 17 0) 0xff s)
    else reply c stOk 0 [descWord d, stateWord d] s

/-- RANGE_DESCRIPTOR_WRITE: the move engine writes the next descriptor of a range; the reply leaves with the last (10 R238). -/
def rangeDescriptorRun (s : State) : State :=
  match s.qm.range with
  | none => s
  | some j =>
    let s := writeDesc j.next j.desc (advance 1 s)
    if j.next ≥ j.last then reply j.cmd stOk 0 [] { s with qm := { s.qm with range := none } }
    else { s with qm := { s.qm with range := some { j with next := j.next + 1, desc := { j.desc with base := j.desc.base + j.step } } } }

end Sys2Proof.Machine
end

