-- ==== Sys2Proof/Machine/TimeBase.lean ====
section
/-! DEFINITION. The time base and the cycle generators (08 R187-R207). -/

namespace Sys2Proof.Machine

/-! ### Generators (08 R200) -/

/-- Register of generator `n` at offset `o`. -/
def cygReg (n o : Nat) : Nat := 0x11000 + n * 0x20 + o

/-- The generator is enabled. -/
def cygOn (s : State) (n : Nat) : Bool := regB s (cygReg n 0) 31

/-- Period in units of 2^-32 ns. -/
def cygPeriod (s : State) (n : Nat) : Nat := (getReg s (cygReg n 4)).toNat * nsU

/-- Anchor in units of 2^-32 ns. -/
def cygAnchor (s : State) (n : Nat) : Nat :=
  tOf (regF s (cygReg n 0xC) 31 0 + 2 ^ 32 * regF s (cygReg n 0x10) 15 0) (regF s (cygReg n 8) 29 0) 0

/-- (T - A) mod P (08 R200). -/
def cygOffset (s : State) (n t : Nat) : Nat := (((t : Int) - cygAnchor s n) % (cygPeriod s n : Nat)).toNat

/-- Phase of generator `n` at time `t` (08 R200). -/
def phaseAt (s : State) (n t : Nat) : Reg :=
  if cygOn s n then BitVec.ofNat 32 (cygOffset s n t * 2 ^ 32 / cygPeriod s n) else 0

/-- Phase of generator `n` now. -/
def phaseNow (s : State) (n : Nat) : Reg := phaseAt s n s.tb.t

/-- The time at which the phase of generator `n` next reaches `target` after time `t0` (06 R156 `crossed`): phase is at least the target
from offset target x P of the period on. Log 60 (DEDUCED). -/
def crossDue (s : State) (n : Nat) (target : Reg) (t0 : Nat) : Nat :=
  let p := cygPeriod s n
  let x := target.toNat * (p / nsU)
  let m := cygOffset s n t0
  t0 + (if m < x then x - m else p - (m - x))

/-- A commit is PENDING on generator `n` (06 R156). -/
def pendingOn (s : State) (n : Nat) : Bool :=
  (List.range 4).any fun c => (chan s (chn c)).pends.any (·.cyg == n)

/-- A commit is PENDING on an enabled generator (08 R192). -/
def pendingAny (s : State) : Bool := (List.range 16).any fun n => cygOn s n && pendingOn s n

/-! ### Discontinuities (08 R193, R203) -/

/-- TB_STEP word 1: T after minus T before in ns, signed, saturating (10 Table 10.5). -/
def stepWord (t0 t1 : Nat) : Word :=
  let v := wholeNs ((t1 : Int) - t0)
  if v > 2 ^ 63 - 1 then ones 62 0 else if v < -(2 ^ 63) then ones 63 63 else BitVec.ofInt 64 v

/-- The work queue heads that wait for a phase of a generator of `gens` keep a crossing made before a discontinuity, and count anew from
the time after it; those of a generator that was disabled count from it too (10 R252). Log 30 (DEDUCED). -/
def moveHeads (gens : Nat → Bool) (t1 : Nat) (s : State) : State :=
  let one := fun (x : Nat × Option Nat) =>
    match x.2 with
    | none => x
    | some t0 =>
      let d := qDesc s x.1
      match rawWord s (qAddr d d.rd) with
      | none => x
      | some w =>
        let v := (decodeWord w).1
        let g := fld v 55 52
        if fld v 51 50 = 2 && gens g then
          (x.1, if cygOn s g && decide (crossDue s g (BitVec.ofNat 32 (fld v 31 0)) t0 ≤ s.tb.t) then none else some t1)
        else x
  { s with qm := { s.qm with heads := s.qm.heads.map one } }

/-- Queue of the time base's events (10 Table 10.6). -/
def tbQ (s : State) : BitVec 18 := (getReg s 0x10008).setWidth 18

/-- A discontinuity of the generators `gens`, or of T from `t0` to `t1`, is one of the source of PPS_OUT (08 R197). -/
def hitsPpsOut (gens : Nat → Bool) (t0 t1 : Nat) (s : State) : Bool :=
  let n := regF s 0x10000 28 24
  if n = 0 then t0 != t1 else gens (n - 1)

/-- T moves from its value to `t1` in one CCLK, or a generator of `gens` changes; `f` makes the change (08 R193, R203). Times
counted in T keep what has passed of them; of several in one CCLK the first gives the T before and the T replaced. Log 30 (DEDUCED). Log 86
(DEDUCED). -/
def jump (gens : Nat → Bool) (cause gen t1 : Nat) (f : State → State) (s : State) : State :=
  let t0 := s.tb.t
  let prev := timeAt (s.cclk - 1) s
  let first := (s.tb.disc.find? fun x => x.2.at_ == s.cclk).map (·.2)
  let old := (first.map fun d => (d.prev, d.t0)).getD (prev, t0)
  let mv := fun (t : Int) => t + t1 - t0
  let s := moveHeads gens t1 (offerSoon s)
  let hit := below 16 fun n => gens n && cygOn s n
  let s := newLine <| f { s with tb := { s.tb with
    t := t1
    lastPps := s.tb.lastPps.map mv
    ppsRef := mv s.tb.ppsRef
    setPend := s.tb.setPend.map fun p => { p with limit := mv p.limit }
    ppsOutEnd := s.tb.ppsOutEnd.map fun t => (mv t).toNat
    moved := if hitsPpsOut gens t0 t1 s then 1 else s.tb.moved } }
  let hit := hit ++ below 16 fun n => gens n && cygOn s n && !hit.contains n
  let s := { s with tb := { s.tb with disc := hit.foldl (fun m n => mset m n ⟨s.cclk, old.1, old.2, t1⟩) s.tb.disc } }
  post 7 (tbQ s)
    { type := 0x28, source := BitVec.ofNat 18 (cause * 16 + gen), w1 := stepWord t0 t1, w2 := pack 64 [(tSec t0, 63, 16)],
      w3 := pack 64 [(tNs t0, 63, 32), (tFrac t0, 31, 0)], w4 := pack 64 [(tNs t1, 63, 32), (tFrac t1, 31, 0)] } s

/-- Every generator. Log 86 (DEDUCED). -/
def allGens (n : Nat) : Bool := decide (n < 16)

/-- T is set by a TIME_SET or a STEP (08 R193, R199). -/
def setTime (cause t1 : Nat) (s : State) : State :=
  jump allGens cause 0 t1 (fun s => { s with tb := { s.tb with slewLeft := 0, unset := false, coarse := false, wait := false } }) s

/-- LFCLK_EDGE: coarse time follows T while the time base runs, counts on while it is stopped, and starts it where it waits for that (08
R198, R199; 17 Table 17.3). Of `unset` and `coarse` one is set and the other cleared. Log 96 (DEDUCED). -/
def lfclkEdgeRun (s : State) : State :=
  if running s && !s.tb.wait then { s with aon := { s.aon with coarse := s.tb.t, cLoaded := true } }
  else
    let c := (s.aon.coarse + 131072000000000) % timeRange
    let s := { s with aon := { s.aon with coarse := c } }
    if running s && s.dev.st != .startup then
      jump allGens 2 0 c (fun s => { s with tb := { s.tb with wait := false, unset := !s.aon.cLoaded, coarse := s.aon.cLoaded } }) s
    else s

/-! ### TIME_SET, TIME_ADJ, CYG_CFG (08 R190-R193, R201) -/

/-- The checks of TIME_SET (08 R192). -/
def timeSetBad (c : Cmd) (s : State) : Option Byte :=
  firstBad [(payN c != 2, stBadLen),
    (argF c 23 1 != 0 || fld (payW c 0) 63 48 != 0 || decide (fld (payW c 1) 63 32 ≥ 1000000000) || s.tb.setPend.isSome, stBadArg),
    (pendingAny s, stBusyFix)]

/-- The time a TIME_SET carries (08 R190). -/
def timeSetValue (c : Cmd) : Nat := tOf (fld (payW c 0) 47 0) (fld (payW c 1) 63 32) (fld (payW c 1) 31 0)

/-- TIME_SET, both forms (08 R190, R196): with `at_pps` it waits for an edge, 1.1 s of T at most. Log 85 (DEDUCED). -/
def timeSetRun (c : Cmd) (s : State) : State :=
  match timeSetBad c s with
  | some st => refuse c st s
  | none =>
    if argF c 0 0 = 0 then reply c stOk 0 [] (setTime 0 (timeSetValue c) s)
    else if s.tb.ppsLost then refuse c stTimeout s
    else { s with tb := { s.tb with setPend := some ⟨c, timeSetValue c, s.tb.t + 11 * secU / 10⟩ }
                  fw := { s.fw with parked := s.fw.parked ++ [⟨c, .timeSet⟩] } }

/-- TIME_ADJ (08 R191, R192); a STEP that lands on T = 2^48 s is refused. Log 85 (DEDUCED). Log 115 (DESIGN CHOICE). -/
def timeAdjRun (c : Cmd) (s : State) : State :=
  let op := argF c 1 0
  let v := sgn (payW c 0)
  let t : Int := s.tb.t + v * (nsU : Nat)
  let bad := match op with
    | 0 => decide (v.natAbs > 1099511627)
    | 1 => decide (t < 0) || decide (t ≥ (timeRange : Nat))
    | 2 => decide (v.natAbs > 10000000)
    | _ => true
  match firstBad [(payN c != 1, stBadLen), (argF c 23 2 != 0 || bad, stBadArg), (op == 1 && pendingAny s, stBusyFix)] with
  | some st => refuse c st s
  | none =>
    let s := match op with
      | 0 => newLine (setReg 0x1000C (BitVec.ofInt 32 v) s)
      | 1 => setTime 1 t.toNat s
      | _ => newLine { s with tb := { s.tb with slewLeft := v * (nsU : Nat) } }
    reply c stOk 0 [] s

/-- CYG_CFG, both forms (08 R201). -/
def cygCfgRun (c : Cmd) (s : State) : State :=
  let n := argF c 3 0
  let off := argF c 4 4 == 1
  let w0 := payW c 0
  let w1 := payW c 1
  match firstBad [(payN c != (if off then 0 else 2), stBadLen),
      (argF c 23 5 != 0 || (!off && (decide (fld w0 63 32 < 1000) || decide (fld w0 31 0 ≥ 1000000000) || fld w1 63 48 != 0)), stBadArg),
      (pendingOn s n, stBusyFix)] with
  | some st => refuse c st s
  | none =>
    let f := fun s => if off then setReg (cygReg n 0) 0 s
      else setReg (cygReg n 0) (ones 31 31) (setReg (cygReg n 4) (BitVec.ofNat 32 (fld w0 63 32))
        (setReg (cygReg n 8) (BitVec.ofNat 32 (fld w0 31 0)) (setReg (cygReg n 0xC) (BitVec.ofNat 32 (fld w1 31 0))
          (setReg (cygReg n 0x10) (BitVec.ofNat 32 (fld w1 47 32)) s))))
    reply c stOk 0 [] (jump (· == n) 3 n s.tb.t f s)

/-- SLEW_END: the last CCLK of a slew (08 R191). -/
def slewEndRun (s : State) : State :=
  if s.tb.slewLeft = 0 || s.tb.wait then s else advance (cdiv s.tb.slewLeft.natAbs (slewStep s.part.grade)) s

/-! ### PPS (08 R194-R197) -/

/-- A TIME_SET that waits for an edge ends with ST_TIMEOUT (08 R196). -/
def failSet (s : State) : State :=
  match s.tb.setPend with
  | none => s
  | some p => finish p.cmd stTimeout 0 { s with tb := { s.tb with setPend := none } }

/-- PPS_IN_EDGE: a rising edge is captured, loads a waiting time, or is ignored (08 R194-R196). The capture and its event take the T
before the load. A capture below zero, and a loaded value past the range of T, wrap. Log 95 (DESIGN CHOICE). Log 97 (DEDUCED). -/
def ppsInEdgeRun (s : State) : State :=
  if !regB s 0x10000 31 then s
  else
    let early := match s.tb.lastPps with
      | some t0 => decide ((s.tb.t : Int) - t0 < ((9 * secU / 10 : Nat) : Int))
      | none => false
    if early then bump 0x10048 s
    else
      let dly := regF s 0x10010 15 0 * nsU
      let cap := ((s.tb.t : Int) - (dly : Nat)) % (timeRange : Nat) |>.toNat
      let s := { s with tb := { s.tb with lastPps := some s.tb.t, ppsRef := s.tb.t, ppsLost := false, cap := cap,
                                          ppsSeq := s.tb.ppsSeq + 1 } }
      let s := if regB s 0x10000 30 then
          post 7 (tbQ s) { type := 0x29, source := s.tb.ppsSeq.setWidth 18, w1 := pack 64 [(tNs cap, 63, 32), (tSec cap, 31, 0)],
                           w2 := pack 64 [(tSec cap, 63, 16)] } s
        else s
      match s.tb.setPend with
      | none => s
      | some p =>
        let s := setTime 0 ((p.value + dly) % timeRange) { s with tb := { s.tb with setPend := none } }
        finish p.cmd stOk 0 s

/-- PPS_LOSS: no valid edge for 1.1 s of T (08 R195, R196). -/
def ppsLossRun (s : State) : State :=
  if !regB s 0x10000 31 || s.tb.ppsLost || s.tb.wait then s
  else
    let s := advanceTo (cclkOfTime (s.tb.ppsRef + 11 * secU / 10) s) s
    let s := bump 0x10048 { s with tb := { s.tb with ppsLost := true } }
    failSet (post 7 (tbQ s) { type := 0x2A, source := 0 } s)

/-- SET_PENDING_TIMEOUT: no valid edge came for a TIME_SET within 1.1 s (08 R196). -/
def setPendTimeoutRun (s : State) : State :=
  match s.tb.setPend with
  | none => s
  | some p => if s.tb.wait then s else failSet (advanceTo (cclkOfTime p.limit s) s)

/-- Period of the selected source of PPS_OUT, in units of 2^-32 ns; none while its generator is disabled (08 R197). -/
def ppsOutPeriod (s : State) : Option Nat :=
  let n := regF s 0x10000 28 24
  if n = 0 then some secU else if cygOn s (n - 1) then some (cygPeriod s (n - 1)) else none

/-- Offset of time `t` in the selected source's period. -/
def ppsOutOffset (s : State) (t : Nat) : Nat :=
  let n := regF s 0x10000 28 24
  if n = 0 then t % secU else cygOffset s (n - 1) t

/-- PPS_OUT_BOUNDARY: PPS_OUT rises in the first CCLK in which T reaches a boundary less the advance (08 R197): the present one when the
advance of T in it took T there, or a discontinuity landed on the boundary itself; otherwise the next. Log 98 (DEDUCED). -/
def ppsOutBoundaryRun (s : State) : State :=
  match ppsOutPeriod s with
  | none => s
  | some p =>
    if !regB s 0x10000 29 || s.tb.wait then s
    else
      let m := ppsOutOffset s (s.tb.t + regF s 0x10010 31 16 * nsU)
      let fresh := decide (m < s.tb.moved) && s.tb.ppsOutEnd.isNone
      let s := if fresh then s else advanceTo (cclkOfDelta (p - m) s) s
      let w := min (regF s 0x10014 19 0 * 1000 * nsU) (p / 2)
      { s with tb := { s.tb with ppsOutEnd := some (s.tb.t + w) } }

/-- PPS_OUT_PULSE_END: PPS_OUT falls (08 R197). -/
def ppsOutPulseEndRun (s : State) : State :=
  match s.tb.ppsOutEnd with
  | none => s
  | some t =>
    let s := advanceTo (cclkOfTime t s) s
    { s with tb := { s.tb with ppsOutEnd := none } }

/-- PPS_OUT is high (08 R197). -/
def ppsOutHigh (s : State) : Bool := running s && regB s 0x10000 29 && s.tb.ppsOutEnd.isSome

end Sys2Proof.Machine
end

