-- ==== Sys2Proof/Machine/Partition.lean ====
section
/-! DEFINITION. Partitions, profiles and the placement of blocks (03 R59-R73; 06 R62). -/

namespace Sys2Proof.Machine

/-! ### The partition configuration word (03 Table 3.1) -/

/-- Configuration word of partition `p` of the group led by `c`. -/
def cfgOf (s : State) (c : Chn) (p : Nat) : Word :=
  (getReg s (chAddr c (p * 0x10)) ++ getReg s (chAddr c (p * 0x10 + 4)) : BitVec 64)

def cfgOn (w : Word) : Bool := bitAt w 63
def cfgManaged (w : Word) : Bool := bitAt w 62
/-- Rows of an entry, g. -/
def cfgG (w : Word) : Nat := 2 ^ fld w 61 60
/-- Entry width W. -/
def cfgW (w : Word) : Nat := 80 * cfgG w
def cfgBlocks (w : Word) : Nat := fld w 59 52
def cfgSlice (w : Word) : Bool := bitAt w 51
def cfgPos (w : Word) : Nat := fld w 50 41
def cfgRange (w : Word) (h : Nat) : Bool := bitAt w (25 + h)
def cfgFix (w : Word) : Nat := fld w 24 15
/-- Entries of one block. -/
def perBlock (w : Word) : Nat := 8192 / cfgG w
/-- Entries of the partition (03 R60). -/
def cfgEntries (w : Word) : Nat := cfgBlocks w * perBlock w

/-- Dynamic state of partition `p`. -/
def partOf (s : State) (c : Chn) (p : Nat) : Part := mgetD (chan s c).parts p {}

/-- Changes the dynamic state of partition `p`. -/
def modPart (c : Chn) (p : Nat) (f : Part → Part) (s : State) : State :=
  modChan c (fun k => { k with parts := mset k.parts p (f (mgetD k.parts p {})) }) s

/-! ### Placement -/

/-- Channels in which a group's tables lie: every member, or both channels of a SPAN pair (03 R78, R82). -/
def spans (s : State) (c : Chn) : Bool := lockMode s c == 2

/-- Place of logical block `b` of partition `p` in channel `c`. -/
def posOf (s : State) (c : Chn) (p b : Nat) : Option Nat :=
  ((chan s c).owner.find? fun o => o.2.1 == p && o.2.2 == b).map (·.1)

/-- The proof spare of a channel: block 65, or the repair spare once it has taken its place (13 R337). -/
def proofSpare (k : Chan) : Nat := if k.repaired = some 65 then 64 else 65

/-- The physical block of a position when no pass has moved it (13 R338). -/
def basePhys (k : Chan) (pos : Nat) : Nat := if k.repaired = some pos then 64 else pos

/-- The physical block that serves block position `pos` (01 R16, 13 R330, R332, R338). -/
def servePhys (k : Chan) (pos : Nat) : Nat :=
  let base := basePhys k pos
  let moved := k.heldBlk == some base ||
    (match k.proof with | some r => r.redirected && r.blk == base | none => false)
  if moved then proofSpare k else base

/-- The physical blocks that a write step of block position `pos` writes: from the first copy step of a pass or repair until its end,
the copy as well (13 R331); a repair copies what the block holds when it ends (R338). -/
def writePhys (k : Chan) (pos : Nat) : List Nat :=
  let base := basePhys k pos
  let cur := servePhys k pos
  match k.proof with
  | some r =>
    if r.blk = base && r.rows && (decide (r.op > 0) || decide (r.phase > 1)) && decide (r.phase < 7) then [base, proofSpare k] else [cur]
  | none => [cur]

/-- The lowest free block position of a channel. Log 12 (DESIGN CHOICE). -/
def freePos (k : Chan) : Option Nat := (List.range 64).find? fun i => (mget k.owner i).isNone

/-- Gives logical block `b` of partition `p` a position in channel `c`. Log 12 (DESIGN CHOICE). Log 93 (DESIGN CHOICE). -/
def giveBlock (p b : Nat) (c : Chn) (s : State) : State :=
  match freePos (chan s c) with
  | none => s
  | some i => modChan c (fun k => { k with owner := mset k.owner i (p, b) }) s

/-- Places logical block `b`: in every member, or in either channel of a SPAN pair as a free value chooses (03 R82). Log 93 (DESIGN
CHOICE). -/
def placeBlock (c : Chn) (p b : Nat) (s : State) : State :=
  if spans s c then
    let (v, s) := draw s
    let o := chn (c + 1)
    let first := if v.getLsbD 0 then o else c
    let other := if v.getLsbD 0 then c else o
    if (freePos (chan s first)).isSome then giveBlock p b first s else giveBlock p b other s
  else (groupOf s c).foldl (fun s m => giveBlock p b m s) s

/-- Takes the logical blocks from `n` on away from partition `p`. -/
def dropBlocks (c : Chn) (p n : Nat) (s : State) : State :=
  (groupOf s c).foldl (fun s m =>
    modChan m (fun k => { k with owner := k.owner.filter fun o => !(o.2.1 == p && decide (o.2.2 ≥ n)) }) s) s

/-- Blocks not given to a partition (03 R61, Table 3.17). -/
def freeBlocks (s : State) (c : Chn) : Nat :=
  let all := if spans s c then 128 else 64
  let used := (List.range 64).foldl (fun n p => let w := cfgOf s c p; n + if cfgOn w then cfgBlocks w else 0) 0
  all - used

/-- Rows of channel `m` that lie in the serving places of logical blocks `n` and above of partition `p`. -/
def rowsOf (s : State) (m : Chn) (p n : Nat) : List (Nat × Row) :=
  let k := chan s m
  let ph := (k.owner.filter fun o => o.2.1 == p && decide (o.2.2 ≥ n)).map fun o => servePhys k o.1
  k.rows.filter fun r => ph.contains (r.1 / 8192)

/-- A row of logical block `n` or above of partition `p` has `valid` = 1. -/
def anyValid (s : State) (c : Chn) (p n : Nat) : Bool :=
  (groupOf s c).any fun m => (rowsOf s m p n).any fun r => bitAt r.2.ctl 3

/-- Entries of a partition whose segment-0 row is valid (03 Table 3.4). -/
def entryCount (s : State) (c : Chn) (p : Nat) : Nat :=
  let g := cfgG (cfgOf s c p)
  let ms := if spans s c then groupOf s c else [c]
  ms.foldl (fun n m => n + ((rowsOf s m p 0).filter fun r => r.1 % g == 0 && bitAt r.2.ctl 3).length) 0

/-! ### Profiles (03 R66-R73) -/

/-- Register of profile `p` at offset `o`. -/
def profReg (p o : Nat) : Nat := 0x90000 + p * 0x40 + o

def profOn (ctl : Reg) : Bool := bitAt ctl 31
def profChan (ctl : Reg) : Chn := chn (fld ctl 23 22)
def profKey (ctl : Reg) : Bool := bitAt ctl 21
def profSeLk (ctl : Reg) : Nat := fld ctl 19 18
/-- Number of lookups. -/
def profN (ctl : Reg) : Nat := fld ctl 17 16 + 1
def lkPart (lk : Reg) : Nat := fld lk 29 24
def lkOff (lk : Reg) : Nat := fld lk 22 16

/-- Lookup registers of profile `p` in use. -/
def profLks (s : State) (p : Nat) : List Reg :=
  (List.range (profN (getReg s (profReg p 0)))).map fun j => getReg s (profReg p (0x10 + 4 * j))

/-- An enabled profile names partition `p` of channel `c` (03 Table 3.2). -/
def profileNames (s : State) (c : Chn) (p : Nat) : Bool :=
  (List.range 128).any fun i =>
    let ctl := getReg s (profReg i 0)
    profOn ctl && profChan ctl == c && (profLks s i).any fun l => lkPart l == p

/-- The condition of 03 R70 that fails for the values a write would leave in a profile, 1-5. Log 87 (DEDUCED). -/
def profBad (s : State) (ctl kb se : Reg) (lks : List Reg) : Option Nat :=
  let c := profChan ctl
  let cfg := lks.map fun l => cfgOf s c (lkPart l)
  let parts := lks.map lkPart
  let w := nth cfg (profSeLk ctl) 0
  let pp := fld kb 25 16
  if !isLead s c then some 1
  else if cfg.any (fun w => !cfgOn w) || parts.eraseDups.length != parts.length then some 2
  else if (lks.zip cfg).any (fun x => decide (8 * lkOff x.1 + cfgW x.2 > 640) || decide (lkAd x.1 > cfgG x.2)) then some 3
  else if profSe ctl && (decide (profSeLk ctl ≥ lks.length) || decide (fld se 8 6 ≥ cfgG w) || decide (fld se 5 0 > 46)) then some 4
  else if profKey ctl && bitAt kb 31 && decide (pp + (if bitAt kb 30 then 32 else 16) > 640) then some 5
  else none

/-- The profile is cascaded: its bit of CLP_RING_PROF0-3 is set (07 Table 7.7). Log 87 (DEDUCED). -/
def profCasc (s : State) (p : Nat) : Bool := regB s (0x4C010 + 4 * (p / 32)) (p % 32)

/-- The ring is FORMED or WRAPPED and a cascaded profile names the group led by `c` (11 R274). -/
def ringHolds (s : State) (c : Chn) : Bool :=
  (s.ring.st == .formed || s.ring.st == .wrapped) &&
    (List.range 128).any fun p => profCasc s p && profOn (getReg s (profReg p 0)) && profChan (getReg s (profReg p 0)) == c

/-! ### PART_CFG (03 R59-R63) -/

/-- A field of a configuration word is out of its range or breaks 02 R48. Log 48 (DEDUCED). -/
def cfgBad (s : State) (c : Chn) (w : Word) : Bool :=
  let g := cfgG w
  cfgOn w && (cfgBlocks w == 0 || decide (cfgBlocks w > (if spans s c then 128 else 64)) ||
    decide (cfgPos w > cfgW w - 8) ||
    (cfgSlice w && (List.range 16).any (fun h => cfgRange w h && decide (40 * h < cfgPos w + 8) && decide (cfgPos w < 40 * h + 40))) ||
    (List.range 16).any (fun h => decide (h ≥ 2 * g) && cfgRange w h) || decide (cfgFix w > 1000))

/-- The conditions of 03 Table 3.2 for a change from `o` to `w`, those of ST_FULL first where both fail. Log 48 (DEDUCED). Log 83 (DEDUCED).
Log 112 (DESIGN CHOICE). -/
def changeBad (s : State) (c : Chn) (p : Nat) (o w : Word) : Option Byte :=
  let free := freeBlocks s c
  let rows := anyValid s c p 0
  let named := profileNames s c p
  let both := cfgOn o && cfgOn w
  firstBad [(!cfgOn o && cfgOn w && decide (free < cfgBlocks w), stFull),
    (both && decide (cfgBlocks w > cfgBlocks o) && decide (free < cfgBlocks w - cfgBlocks o), stFull),
    (both && decide (cfgBlocks w < cfgBlocks o) && anyValid s c p (cfgBlocks w), stBadArg),
    (both && fld w 61 60 != fld o 61 60 && (rows || named), stBadArg),
    (both && (cfgManaged w != cfgManaged o || fld w 51 25 != fld o 51 25) && rows, stBadArg),
    (cfgOn o && !cfgOn w && (rows || named), stBadArg)]

/-- Writes a register of partition `p` in every member of the group (03 Table 3.3). -/
def setPartReg (c : Chn) (p o : Nat) (v : Reg) (s : State) : State :=
  (groupOf s c).foldl (fun s (m : Chn) => setReg (chAddr m (p * 0x10 + o)) v s) s

/-- PART_CFG (03 R62, R63). -/
def partCfgRun (c : Cmd) (s : State) : State :=
  let k := chn (argF c 7 6)
  let p := argF c 5 0
  let w := payW c 0
  let o := cfgOf s k p
  let busy := (partOf s (leadOf s k) p).st != .steady && (w &&& ~~~(ones 24 15)) != (o &&& ~~~(ones 24 15))
  match (firstBad [(ownerBars s k p c.p.ap, stDenied), (payN c != 1, stBadLen),
      (argF c 23 8 != 0 || fld w 14 0 != 0 || cfgBad s k w || !isLead s k, stBadArg), (busy, stBusyFix)]).orElse
      (fun _ => changeBad s k p o w) with
  | some st => refuse c st s
  | none =>
    let s := setPartReg k p 0 (w.extractLsb' 32 32) (setPartReg k p 4 (w.extractLsb' 0 32) s)
    let n0 := if cfgOn o then cfgBlocks o else 0
    let n1 := if cfgOn w then cfgBlocks w else 0
    let s := if n1 < n0 then dropBlocks k p n1 s else (List.range (n1 - n0)).foldl (fun s i => placeBlock k p (n0 + i) s) s
    reply c stOk 0 [] (if cfgOn w then s else modPart k p (fun x => { x with cls := [] }) s)

end Sys2Proof.Machine
end

