-- ==== Sys2Proof/Machine/Pool.lean ====
section
/-! DEFINITION. The snippet buffer pool (12 R300-R309). -/

namespace Sys2Proof.Machine

/-- Tag of buffer `b`. -/
def bufTag (s : State) (b : Nat) : BufTag := mgetD s.pool.tags b {}

/-- Stores a tag; a free buffer's tag is not listed. -/
def putTag (b : Nat) (t : BufTag) (s : State) : State :=
  { s with pool := { s.pool with tags := if t.count = 0 then mdel s.pool.tags b else mset s.pool.tags b t } }

/-- Stores the tag of a head; the second buffer of its chain carries the same `count` and `holders` (12 R300). -/
def putHead (b : Nat) (t : BufTag) (s : State) : State :=
  let s := putTag b t s
  if t.chained then putTag t.next.toNat { count := t.count, holders := t.holders } s else s

/-- SRAM word `i` of buffer `b`. -/
def bufWord (b i : Nat) : Nat := poolBase + b * 16 + i

/-- SRAM word `i` of the snippet whose head is `b` (12 R300). -/
def snipWord (s : State) (b i : Nat) : Nat := if i < 16 then bufWord b i else bufWord (bufTag s b).next.toNat (i - 16)

/-- Words of a snippet of `len` bytes. -/
def lenWords (len : Nat) : Nat := cdiv len 8

/-- The bytes of the last word after `len` are zero. -/
def tailClear (len : Nat) (ws : List Word) : Bool :=
  len % 8 == 0 || fld (nth ws (len / 8) 0) (63 - 8 * (len % 8)) 0 == 0

/-! ### Free lists (12 R301, R308) -/

/-- Threads free buffer `b` to `next`; a link to the following buffer is what an unlisted word reads (12 R309). Log 26 (DEDUCED). -/
def linkTo (b next : Nat) (s : State) : State :=
  let w := bufWord b 0
  if next = b + 1 && b % 16384 != 16383 then
    rearm 5 (w * 8) (cancelHeal w { s with sram := mdel s.sram w })
  else writeMem w 0xff (BitVec.ofNat 64 next) s

/-- The first word of a buffer freed at the tail of its list keeps what it holds; one never written reads zero. Log 26 (DEDUCED). -/
def sealTail (b : Nat) (s : State) : State :=
  let w := bufWord b 0
  if (mget s.sram w).isNone && b % 16384 != 16383 then writeMem w 0xff 0 s else s

/-- Appends buffer `b`, whose tag is clear, at the tail of its list (12 R301). -/
def appendFree (b : Nat) (s : State) : State :=
  let hi := b ≥ 16384
  let l := if hi then s.pool.hi else s.pool.lo
  let s := sealTail b s
  let s := if l.n = 0 then s else linkTo l.tail b s
  let l' : FreeList := ⟨if l.n = 0 then b else l.head, b, l.n + 1⟩
  { s with pool := if hi then { s.pool with hi := l' } else { s.pool with lo := l' } }

/-- Frees buffer `b` in CCLK `n`. During a rebuild only its tag is cleared (12 R308). -/
def freeBuf (b n : Nat) (s : State) : State :=
  let s := putTag b {} s
  if s.pool.rebuild then s
  else
    let s := appendFree b s
    let p := s.pool
    let lo := if p.freedAt = n then p.freedLo else 0
    let hi := if p.freedAt = n then p.freedHi else 0
    { s with pool := { p with freedAt := n, freedLo := lo + b2n (b < 16384), freedHi := hi + b2n (b ≥ 16384) } }

/-- Buffers that an allocation in CCLK `n` may take (12 R301, R307). -/
def availLo (s : State) (n : Nat) : Nat := freeLo s - (if s.pool.freedAt = n then s.pool.freedLo else 0)
def availHi (s : State) (n : Nat) : Nat := freeHi s - (if s.pool.freedAt = n then s.pool.freedHi else 0)

/-- An allocation met a poisoned link: both lists go out of use (12 R308). -/
def linkPoison (s : State) : State := bump 0x318 { s with pool := { s.pool with rebuild := true } }

/-- Takes the buffer at the head of a list (12 R301). -/
def popFree (n : Nat) (s : State) : Option Nat × State :=
  let hi := availLo s n == 0
  if hi && availHi s n == 0 then (none, s)
  else
    let l := if hi then s.pool.hi else s.pool.lo
    let (v, bad, s) := if l.n > 1 then readMem (bufWord l.head 0) s else (0, false, s)
    if bad then (none, linkPoison s)
    else
      let l' : FreeList := ⟨fld v 14 0, l.tail, l.n - 1⟩
      (some l.head, { s with pool := if hi then { s.pool with hi := l' } else { s.pool with lo := l' } })

/-- Gives a taken buffer its tag and marks its words never written (12 R302). -/
def giveBuf (b : Nat) (t : BufTag) (s : State) : State := putTag b t (clearMem (bufWord b 0) (bufWord b 16) s)

/-- Allocates the buffers of a snippet of `len` bytes to master `m` in CCLK `n`, whole or not at all (12 R302). -/
def allocBuf (m : Nat) (len n : Nat) (s : State) : Option Nat × State :=
  let need := if len > 128 then 2 else 1
  if availLo s n + availHi s n < need then (none, s)
  else
    let holders : BitVec 16 := BitVec.ofNat 16 (2 ^ m)
    match popFree n s with
    | (none, s) => (none, s)
    | (some b, s1) =>
      if need = 1 then
        (some b, addStat 0x320 1 (giveBuf b { count := 1, holders := holders, len := len, head := true } s1))
      else match popFree n s1 with
        | (none, s2) => (none, { s2 with pool := { s2.pool with lo := s.pool.lo, hi := s.pool.hi } })
        | (some b2, s2) =>
          let s := giveBuf b2 { count := 1, holders := holders } s2
          let t : BufTag := { count := 1, holders := holders, len := len, chained := true, next := BitVec.ofNat 15 b2, head := true }
          (some b, addStat 0x320 2 (giveBuf b t s))

/-- Drops one reference of head `b`; the last one frees the snippet (12 R305). -/
def dropRef (b n : Nat) (s : State) : State :=
  let t := bufTag s b
  if t.count ≤ 1 then
    let s := freeBuf b n s
    if t.chained then freeBuf t.next.toNat n s else s
  else putHead b { t with count := t.count - 1 } s

/-- A walk takes a reference of head `b`, not recorded in `holders` (12 R306). -/
def addWalk (b : Nat) (s : State) : State :=
  let t := bufTag s b
  putHead b { t with count := t.count + 1, walks := t.walks + 1 } s

/-- The handover of a walk drops its reference of head `b` in CCLK `n` (12 R306). -/
def dropWalk (b n : Nat) (s : State) : State :=
  let t := bufTag s b
  dropRef b n (putTag b { t with walks := t.walks - 1 } s)

/-- FREE_LIST_REBUILD: both lists are threaded from the tags in ascending handle order (12 R308). -/
def freeListRebuildRun (s : State) : State :=
  if !s.pool.rebuild then s
  else
    let one := fun (lo : Nat) (s : State) =>
      let fr := (List.range 16384).filterMap fun i => if bufFree s (lo + i) then some (lo + i) else none
      let s := (fr.zip (fr.drop 1)).foldl (fun s p => linkTo p.1 p.2 s) s
      let s := match fr.getLast? with | some b => sealTail b s | none => s
      (({ head := fr.headD 0, tail := fr.getLastD 0, n := fr.length } : FreeList), s)
    let (l, s) := one 0 s
    let (h, s) := one 16384 s
    { s with pool := { s.pool with lo := l, hi := h, rebuild := false } }

/-! ### The commands (12 Table 12.8) -/

/-- A buffer command joins the pool's queue of 64 (15 Table 15.2). -/
def poolJoin (c : Cmd) (s : State) : State :=
  let (u, x) := s.pool.unit.join 64 c
  noPlace x { s with pool := { s.pool with unit := u } }

/-- The handle argument names no head of an allocated snippet (12 R303). -/
def badHandle (s : State) (b : Nat) : Bool := !(bufTag s b).head

/-- The sender is in the buffer's holder mask (12 R300). -/
def holds (s : State) (b : Nat) (ap : Ap) : Bool := bitAt (bufTag s b).holders ap

/-- BUF_GET, in CCLK `n` (12 R302). -/
def bufGetRun (n : Nat) (c : Cmd) (s : State) : State :=
  let len := argF c 8 0
  let fill := argF c 9 9 == 1
  match firstBad [(payN c != (if fill then lenWords len else 0), stBadLen),
      (argF c 23 10 != 0 || len == 0 || decide (len > 256) || (fill && !tailClear len c.p.pay), stBadArg)] with
  | some st => replyAt n c st 0 [] s
  | none =>
    match allocBuf c.p.ap len n s with
    | (none, s) => replyAt n c stNoBuffer 0 [] s
    | (some b, s) =>
      let s := if fill then (c.p.pay.zipIdx).foldl (fun s x => writeMem (snipWord s b x.2) 0xff x.1 s) s else s
      replyAt n c stOk b [] s

/-- BUF_SHARE, in CCLK `n` (12 R304). -/
def bufShareRun (n : Nat) (c : Cmd) (s : State) : State :=
  let b := argF c 14 0
  let t := bufTag s b
  let add := fld (payW c 0) 15 0
  let k := (bitsOf (BitVec.ofNat 16 add)).length
  match firstBad [(payN c != 1, stBadLen),
      (argF c 23 15 != 0 || badHandle s b || fld (payW c 0) 63 9 != 0 || add == 0 || decide (t.count + k > 255), stBadArg),
      (!holds s b c.p.ap, stNotHolder)] with
  | some st => replyAt n c st 0 [] s
  | none =>
    let s := putHead b { t with count := t.count + k, holders := t.holders ||| BitVec.ofNat 16 add } s
    replyAt n c stOk (t.count + k) [] s

/-- BUF_RELEASE, in CCLK `n` (12 R305). A release when only references of walks are left holds none. Log 104 (DESIGN CHOICE). -/
def bufReleaseRun (n : Nat) (c : Cmd) (s : State) : State :=
  let b := argF c 14 0
  let t := bufTag s b
  match firstBad [(payN c != 0, stBadLen), (argF c 23 15 != 0 || (t.count != 0 && !t.head), stBadArg)] with
  | some st => replyAt n c st 0 [] s
  | none =>
    if t.count = 0 then
      let s := bump 0x308 s
      let s := postDev 10 { type := 0x39, source := BitVec.ofNat 18 b, w1 := BitVec.ofNat 64 c.p.ap } s
      replyAt n c stOk (2 ^ 9) [] s
    else if !holds s b c.p.ap || t.count == t.walks then replyAt n c stNotHolder 0 [] (bump 0x310 s)
    else replyAt n c stOk (t.count - 1 + b2n (t.count == 1) * 2 ^ 8) [] (dropRef b n s)

/-- BUF_WR, in CCLK `n` (12 R303). -/
def bufWrRun (n : Nat) (c : Cmd) (s : State) : State :=
  let b := argF c 14 0
  let first := argF c 19 15
  let t := bufTag s b
  let all := List.replicate first 0 ++ c.p.pay
  match firstBad [(payN c == 0 || (t.head && decide (first + payN c > lenWords t.len)), stBadLen),
      (argF c 23 20 != 0 || badHandle s b || (first + payN c == lenWords t.len && !tailClear t.len all), stBadArg),
      (!holds s b c.p.ap, stNotHolder)] with
  | some st => replyAt n c st 0 [] s
  | none =>
    let s := (c.p.pay.zipIdx).foldl (fun s x => writeMem (snipWord s b (first + x.2)) 0xff x.1 s) s
    replyAt n c stOk 0 [] s

/-- Reads the words of a snippet: the words, whether any was poisoned, and the state. -/
def readSnip (b : Nat) : Nat → Nat → State → List Word × Bool × State
  | 0, _, s => ([], false, s)
  | k + 1, i, s =>
    let (v, bad, s) := readMem (snipWord s b i) s
    let (vs, bads, s) := readSnip b k (i + 1) s
    (v :: vs, bad || bads, s)

/-- BUF_RD, in CCLK `n` (12 R303). -/
def bufRdRun (n : Nat) (c : Cmd) (s : State) : State :=
  let b := argF c 14 0
  let t := bufTag s b
  match firstBad [(payN c != 0, stBadLen), (argF c 23 15 != 0 || badHandle s b, stBadArg),
      (!holds s b c.p.ap, stNotHolder)] with
  | some st => replyAt n c st 0 [] s
  | none =>
    let (vs, bad, s) := readSnip b (lenWords t.len) 0 s
    replyAt n c (if bad then stPoison else stOk) t.len vs s

/-! ### One CCLK of the pool (12 R302, R307) -/

/-- Place of a command among those of its CCLK (12 R307): BUF_WR, BUF_RD, BUF_SHARE, BUF_RELEASE, and last the allocations. Log 104
(DESIGN CHOICE). -/
def poolRank (c : Cmd) : Nat :=
  match c.op.toNat with
  | 0x43 => 0
  | 0x44 => 1
  | 0x41 => 2
  | 0x42 => 3
  | _ => 4

/-- Runs a buffer command in CCLK `n`; `hold` runs an HSRCH that holds its snippet. -/
def poolExec (hold : Cmd → State → State) (n : Nat) (c : Cmd) (s : State) : State :=
  match c.op.toNat with
  | 0x11 => hold c s
  | 0x40 => bufGetRun n c s
  | 0x41 => bufShareRun n c s
  | 0x42 => bufReleaseRun n c s
  | 0x43 => bufWrRun n c s
  | _ => bufRdRun n c s

/-- The allocation requests of a CCLK in the rotating order of the pool's own arbiter, and its rotation after them (12 R302, 01 R444). -/
def rankAsks (a : Rota) (l : List Cmd) : Rota × List Cmd :=
  let l := l.mergeSort fun x y => rotRank a.rot (srcOf x) ≤ rotRank a.rot (srcOf y)
  (match l with
    | x :: t => if t.any (fun y => srcOf y != srcOf x) then { a with rot := (srcOf x + 1) % 11 } else a
    | [] => a, l)

/-- The pool serves the commands of this CCLK in the order of 12 R307: `copy` makes the handover copies of the CCLK, and `drop` drops their
references. -/
def poolServe (copy drop : State → State) (hold : Cmd → State → State) (s : State) : State :=
  let l := s.pool.unit.queue
  if l.isEmpty && s.pool.asks.isEmpty then s
  else
    let (a, asks) := rankAsks s.pool.arb (l.filter (poolRank · == 4) ++ s.pool.asks)
    let exec := fun (s : State) c => poolExec hold s.cclk c s
    let s := { s with pool := { s.pool with unit := { s.pool.unit with queue := [] }, asks := [], arb := a } }
    let s := ((l.filter fun c => decide (poolRank c < 3)).mergeSort fun x y => poolRank x ≤ poolRank y).foldl exec (copy s)
    asks.foldl exec ((l.filter (poolRank · == 3)).foldl exec (drop s))

end Sys2Proof.Machine
end

