-- ==== Sys2Proof/Machine/KeyBuilder.lean ====
section
/-! DEFINITION. The key builder's walk (04 R97-R110). -/

namespace Sys2Proof.Machine

/-! ### Cause codes (04 Table 4.11) -/

def kbNone : BitVec 4 := 0
def kbDepth : BitVec 4 := 1
def kbLength : BitVec 4 := 2
def kbFragment : BitVec 4 := 3
def kbShort : BitVec 4 := 4
def kbUnknown : BitVec 4 := 5
def kbInvalid : BitVec 4 := 6
def kbRaw : BitVec 4 := 7

/-- Register of template `t` at offset `o`. -/
def tplReg (t o : Nat) : Nat := 0x50000 + t * 0x80 + o

/-- Port class `k` for an HSRCH checked in this CCLK: a write in the same CCLK comes after it (04 R98). Log 55 (DEDUCED). -/
def pclsNow (s : State) (k : Nat) : Reg :=
  match mget s.pclsWas k with
  | some (n, v) => if n = s.cclk then v else getReg s (0x51000 + 4 * k)
  | none => getReg s (0x51000 + 4 * k)

/-- The port class is disabled (04 R97). -/
def pclsOff (r : Reg) : Bool := !bitAt r 31 && fld r 23 20 == 0

/-- The two snippet bytes at `p`, big-endian. -/
def win16 (b : List Byte) (p : Nat) : Nat := (nth b p 0).toNat * 256 + (nth b (p + 1) 0).toNat

/-- Value of a 16-bit window (04 R100): shift, width minus one, unit code, bytes added. -/
def val16 (b : List Byte) (p sh bm1 u a : Nat) : Nat := (win16 b p >>> sh) % 2 ^ (bm1 + 1) * 2 ^ u + a

/-- Fields of a template that visit `v` extracts, in ascending order (04 R107). -/
def liveFields (s : State) (t v : Nat) : List Reg :=
  ((List.range 16).map fun n => getReg s (tplReg t (0x40 + 4 * n))).filter fun f =>
    bitAt f 31 && (fld f 30 28 == 0 || fld f 30 28 == v)

/-- The last snippet byte that a field of a layer at `pos` takes. -/
def fieldEnd (f : Reg) (pos : Nat) : Nat := (8 * (pos + fld f 27 21) + fld f 20 18 + fld f 17 13) / 8

/-- Extracts a field into the key image (04 R106). -/
def putField (b : List Byte) (pos : Nat) (k : Key) (f : Reg) : Key :=
  let first := 8 * (pos + fld f 27 21) + fld f 20 18
  let n := fld f 17 13 + 1
  let v := (List.range n).foldl (fun a i => a * 2 + b2n ((nth b ((first + i) / 8) 0).getLsbD (7 - (first + i) % 8))) 0
  putF k v (fld f 9 0 + n - 1) (fld f 9 0)

/-- The next layer that a template chooses (04 R105). -/
def nextTpl (s : State) (b : List Byte) (t pos : Nat) : Nat :=
  let sel := getReg s (tplReg t 4)
  let w := Nat.land (win16 b (pos + fld sel 30 24)) (fld sel 15 0)
  let rule := ((List.range 4).map fun n => getReg s (tplReg t (0x10 + 4 * n))).find? fun r => bitAt r 31 && fld r 15 0 == w
  match (if bitAt sel 31 then rule else none) with
  | some r => fld r 21 16
  | none => fld sel 21 16

/-- What a layer's checks give: the cause that ends the walk, or the header length and the new limit (04 R105). -/
def layerCheck (s : State) (b : List Byte) (limit : Option Nat) (pos t seen : Nat) : BitVec 4 ⊕ (Nat × Option Nat) :=
  let n := b.length
  let len := getReg s (tplReg t 0)
  let chk := getReg s (tplReg t 8)
  let frag := getReg s (tplReg t 0xC)
  let sel := getReg s (tplReg t 4)
  let mode := bitAt len 30
  let ovr := fun (x : Nat) => match limit with | some l => decide (x > l) | none => false
  let hlen := if mode then val16 b (pos + fld len 29 23) (fld len 22 19) (fld len 18 15) (fld len 14 13) (fld len 12 5) else fld len 12 5
  let tot := val16 b (pos + fld chk 30 24) (fld chk 23 20) (fld chk 19 16) (fld chk 15 14) (fld chk 13 6)
  if pos ≥ n then .inl kbShort
  else if !bitAt len 31 then .inl kbInvalid
  else if mode && decide (pos + fld len 29 23 + 2 > n) then .inl kbShort
  else if hlen == 0 || ovr (pos + hlen) then .inl kbLength
  else if bitAt chk 31 && decide (pos + fld chk 30 24 + 2 > n) then .inl kbShort
  else if bitAt chk 31 && (decide (tot < hlen) || ovr (pos + tot)) then .inl kbLength
  else if pos + hlen > n then .inl kbShort
  else if bitAt frag 30 then .inl kbFragment
  else if bitAt frag 31 && decide (pos + fld frag 29 23 + 2 > n) then .inl kbShort
  else if bitAt frag 31 && Nat.land (win16 b (pos + fld frag 29 23)) (fld frag 15 0) != 0 then .inl kbFragment
  else if bitAt sel 31 && decide (pos + fld sel 30 24 + 2 > n) then .inl kbShort
  else if (liveFields s t (seen + 1)).any fun f => decide (fieldEnd f pos ≥ n) then .inl kbShort
  else .inr (hlen, if bitAt chk 31 then some (pos + tot) else limit)

/-- The walk from a layer on (04 R105): cause, key image, and the layer and start byte where it ended. `fuel` is the layers left. -/
def walkFrom (s : State) (b : List Byte) (depth : Nat) :
    Nat → Nat → Option Nat → Nat → Nat → List (Nat × Nat) → Key → BitVec 4 × Key × Nat × Nat
  | 0, layer, _, pos, _, _, k => (kbDepth, k, layer, pos)
  | fuel + 1, layer, limit, pos, t, seen, k =>
    match layerCheck s b limit pos t (mgetD seen t 0) with
    | .inl c => (c, k, layer, pos)
    | .inr (hlen, limit) =>
      let v := min 7 (mgetD seen t 0 + 1)
      let k := (liveFields s t v).foldl (putField b pos) k
      let nx := nextTpl s b t pos
      if nx = 0x3E then (kbNone, k, layer, pos)
      else if nx ≥ 32 then (kbUnknown, k, layer, pos)
      else if layer = depth then (kbDepth, k, layer, pos)
      else walkFrom s b depth fuel (layer + 1) limit (pos + hlen) nx (mset seen t v) k

/-- The key image and cause of a snippet under a port class and a descriptor (04 R99, R105). -/
def buildKey (s : State) (pcls : Reg) (desc : Word) (b : List Byte) : BitVec 4 × Key × Nat × Nat :=
  let off := fld desc 23 16
  if bitAt pcls 31 then
    (kbRaw, BitVec.ofNat 640 ((List.range 64).foldl (fun a i => a * 256 + (nth b (off + i) 0).toNat) 0), 0, 0)
  else
    let t := if bitAt desc 31 then fld desc 28 24 else fld pcls 28 24
    let fl := fld desc 47 32
    walkFrom s b (fld pcls 23 20) 16 1 (if fl = 0 then none else some fl) off t [] 0

/-- Inserts the phase sampled at the check (04 R109). -/
def putPhase (kb : Reg) (phase : Reg) (k : Key) : Key :=
  let p := fld kb 25 16
  if !bitAt kb 31 then k
  else if bitAt kb 30 then putF k phase.toNat (p + 31) p else putF k (fld phase 31 16) (p + 15) p

/-- Snippet bytes carried in payload words. -/
def snipBytes (ws : List Word) (n : Nat) : List Byte := (ws.flatMap wordBytes).take n

end Sys2Proof.Machine
end

