-- ==== Sys2Proof/Machine/Breach.lean ====
section
/-! DEFINITION. Breach test: BREACH_CFG and what an injection does to a unit (14 R364-R367). -/

namespace Sys2Proof.Machine

/-- Target `t` modulo 10: PG0-PG7, cascade east, cascade west (14 Table 14.9). -/
def brxN (t : Nat) : Fin 10 := ⟨t % 10, Nat.mod_lt _ (by decide)⟩

/-- BREACH_CFG (14 R364). -/
def breachCfgRun (c : Cmd) (s : State) : State :=
  let t := argF c 23 20
  let action := argF c 18 17
  let random := argF c 16 16 == 1
  let ctl := argF c 15 15 == 1
  let recrc := argF c 14 14 == 1
  let n := fld (payW c 0) 63 32
  let th := fld (payW c 0) 31 0
  match firstBad [(!regB s 0x4E000 31, stDenied), (payN c != 3, stBadLen),
      (argF c 13 0 != 0 || fld (payW c 2) 63 32 != 0 || decide (t > 9) || (random && (n == 0 || th == 0)) ||
        (!random && n == 0 && action != 0) || ((ctl || recrc) && decide (t ≥ 8)) || (ctl && action == 3), stBadArg)] with
  | some st => refuse c st s
  | none =>
    let x : Brx := {
      tx := argF c 19 19 == 1, action := BitVec.ofNat 2 action, random := random, ctl := ctl, recrc := recrc,
      n := BitVec.ofNat 32 n, s := BitVec.ofNat 32 n, thresh := BitVec.ofNat 32 th, xor := payW c 1,
      limit := BitVec.ofNat 32 (fld (payW c 2) 31 0) }
    replyAfter c stOk 0 [] (.breach (brxN t) x) s

/-- A BREACH_CFG setting comes into force; the units held by the setting it replaces still go on (14 R364). A target that `brx_en` = 0 has
stopped by then does not start (R367). -/
def startBreach (t : Fin 10) (x : Brx) (s : State) : State :=
  let o := s.brx[t]
  { s with brx := s.brx.set t { x with
      action := if regB s 0x4E000 31 then x.action else 0, heldFlit := o.heldFlit, heldFec := o.heldFec, heldFrame := o.heldFrame,
      outFlit := o.outFlit, outFrame := o.outFrame } }

/-- The next value of the random register (14 R366). Log 84 (DEDUCED). -/
def brxNext (s : BitVec 32) : BitVec 32 := if s.getLsbD 0 then (s >>> 1) ^^^ 0x80200003 else s >>> 1

/-- An eligible unit of target `t` passes: whether it is selected (14 R365, R366). Log 84 (DEDUCED). -/
def brxPick (t : Fin 10) (s : State) : Bool × State :=
  let x := s.brx[t]
  if x.action = 0 then (false, s)
  else
    let r := brxNext x.s
    let hit := if x.random then decide (r.toNat < x.thresh.toNat) else (x.seen + 1) % max 1 x.n.toNat == 0
    let x := if x.random then { x with s := r } else { x with seen := x.seen + 1 }
    if !hit then (false, { s with brx := s.brx.set t x })
    else
      let d := x.done + 1
      let stop := x.limit != 0 && decide (d ≥ x.limit.toNat)
      let x := { x with done := d, action := if stop then 0 else x.action }
      (true, addStat (0x4E100 + t.val * 8) 1 { s with brx := s.brx.set t x })

/-- Bytes 0 to 35 of a flit, in the order sent (14 R343). -/
def flitBytes (f : Flit) : List Byte :=
  natBytes 4 f.hdr.toNat ++ wordBytes f.w0 ++ wordBytes f.w1 ++ wordBytes f.w2 ++ wordBytes f.w3

/-- A flit with its CRC (14 R343). The frame check sequence is sent as IEEE 802.3 sends it. -/
def sealFlit (f : Flit) : Flit := { f with crc := crc32 (flitBytes f) }

/-- The CRC of a flit is good. -/
def crcGood (f : Flit) : Bool := f.crc == crc32 (flitBytes f)

/-- A flit is a DATA flit. -/
def isData (f : Flit) : Bool := fld f.hdr 31 30 == 0

/-- The flit that a target holds in one direction: `outFlit` of those sent, `heldFlit` of those received. -/
def brxHeld (tx : Bool) (x : Brx) : Option Flit := if tx then x.outFlit else x.heldFlit

/-- A target holds `h` in one direction. -/
def brxHold (t : Fin 10) (tx : Bool) (h : Option Flit) (s : State) : State :=
  { s with brx := s.brx.set t (if tx then { s.brx[t] with outFlit := h } else { s.brx[t] with heldFlit := h }) }

/-- What injection makes of a flit of one direction on port group `g`: what stays of it in its place, and the flit of that direction held
before, which follows it, whatever direction the setting in force injects in (14 R365). -/
def brxFlit (g : Fin 8) (tx : Bool) (f : Flit) (s : State) : Option Flit × Option Flit × State :=
  let t := brxN g
  let x := s.brx[t]
  let h := brxHeld tx x
  if !(isData f || x.ctl) then (some f, none, s)
  else if x.tx != tx then (some f, h, if h.isSome then brxHold t tx none s else s)
  else
    let (hit, s) := brxPick t s
    match (if hit then x.action.toNat else 0) with
    | 0 => (some f, h, brxHold t tx none s)
    | 1 => (none, h, brxHold t tx none s)
    | 2 =>
      let f := { f with w0 := f.w0 ^^^ x.xor }
      (some (if x.recrc then sealFlit f else f), h, brxHold t tx none s)
    | _ => (none, h, brxHold t tx (some f) s)

/-- A frame whose cell bytes 0 to 7 are XORed with a mask, most significant byte first. -/
def xorFrame (m : Word) (f : Frame) : Frame :=
  { f with bytes := ((f.bytes.take 8).zip (wordBytes m)).map (fun x => x.1 ^^^ x.2) ++ f.bytes.drop 8 }

/-- The target of a cascade port. -/
def brxPort (east : Bool) : Fin 10 := brxN (if east then 8 else 9)

/-- The frame that a target holds in one direction. -/
def brxHeldFrame (tx : Bool) (x : Brx) : Option Frame := if tx then x.outFrame else x.heldFrame

/-- A target holds the frame `h` in one direction. -/
def brxHoldFrame (t : Fin 10) (tx : Bool) (h : Option Frame) (s : State) : State :=
  { s with brx := s.brx.set t (if tx then { s.brx[t] with outFrame := h } else { s.brx[t] with heldFrame := h }) }

/-- What injection makes of a frame of one direction on a cascade port: what stays of it in its place, and the frame of that direction held
before, which follows it (14 R365). -/
def brxFrame (east tx : Bool) (f : Frame) (s : State) : Option Frame × Option Frame × State :=
  let t := brxPort east
  let x := s.brx[t]
  let h := brxHeldFrame tx x
  if x.tx != tx then (some f, h, if h.isSome then brxHoldFrame t tx none s else s)
  else
    let (hit, s) := brxPick t s
    match (if hit then x.action.toNat else 0) with
    | 0 => (some f, h, brxHoldFrame t tx none s)
    | 1 => (none, h, brxHoldFrame t tx none s)
    | 2 => (some (xorFrame x.xor f), h, brxHoldFrame t tx none s)
    | _ => (none, h, brxHoldFrame t tx (some f) s)

/-- Injection of the frames that a cascade port sends is under way: a setting is active, or a held frame still to go. -/
def brxSends (s : State) (east : Bool) : Bool :=
  let x := s.brx[brxPort east]
  (x.tx && x.action != 0) || x.outFrame.isSome

/-- `brx_en` = 0 stops every target (14 R367). -/
def stopBreach (s : State) : State := { s with brx := s.brx.map fun x => { x with action := 0 } }

end Sys2Proof.Machine
end

