-- ==== Sys2Proof/Machine/Frames.lean ====
section
/-! DEFINITION. The frames that the cascade ports send: cells as bytes, packing, frame numbers and the CRC-24 (07 R178; 14 R355-R357). -/

namespace Sys2Proof.Machine

/-- Changes a cascade port. -/
def modPort (east : Bool) (f : CascPort → CascPort) (s : State) : State :=
  { s with ring := if east then { s.ring with east := f s.ring.east } else { s.ring with west := f s.ring.west } }

/-- A cascade port. -/
def portOf (s : State) (east : Bool) : CascPort := if east then s.ring.east else s.ring.west

/-- One step of the CRC-24 of Table 14.7: a byte, most significant bit first. -/
def crc24Byte (c : BitVec 24) (b : Byte) : BitVec 24 :=
  (List.range 8).foldl (fun c _ => if c.getLsbD 23 then (c <<< 1) ^^^ 0x864CFB else c <<< 1) (c ^^^ (b.setWidth 24 <<< 16))

/-- CRC-24 of a frame (14 Table 14.7). -/
def crc24 (f : Frame) : BitVec 24 := (f.bytes ++ (wordBytes f.ctl).take 5).foldl crc24Byte 0xB704CE

/-- Bytes of a cell (07 Tables 7.3, 7.4; 14 R357). -/
def cellBytes (c : Cell) : List Byte :=
  match c with
  | .key k => natBytes 4 (pack 32 [(k.origin.toNat, 31, 29), (k.slot.toNat, 28, 20), (k.profile.toNat, 19, 13), (k.nlk.toNat, 12, 11),
      (k.stamp.toNat, 7, 0)]).toNat ++ k.span
  | .result r =>
    natBytes 2 (pack 16 [(r.origin.toNat, 15, 13), (r.slot.toNat, 12, 4), (r.refuse.toNat, 3, 1), (b2n r.poison.isSome, 0, 0)]).toNat ++
      (r.lks.flatMap (fun l => l.word :: l.ad) ++ r.poison.toList).flatMap wordBytes
  | .control t d l => t :: d.setWidth 8 :: l

/-- CCLK in which frame `k` of a port begins, 248 cell bytes and a control block at the rate of 14 R355. Log 65 (DESIGN CHOICE). -/
def frameAt (g : Grade) (up k : Nat) : Nat :=
  match g with
  | .g12 => up + cdiv (k * 2112) 170
  | .g10 => up + cdiv (k * 4224) 425

/-- The first frame of a port that begins in CCLK `n` or later. -/
def frameNext (g : Grade) (up n : Nat) : Nat :=
  let d := n - up
  if d = 0 then 0
  else match g with
    | .g12 => (d - 1) * 170 / 2112 + 1
    | .g10 => (d - 1) * 425 / 4224 + 1

/-- Cells that are to leave by a port, in their order: those in transit ahead of this part's own new key cells (07 R178). -/
def cellsFor (s : State) (east : Bool) : List Cell := ((s.ring.tx ++ s.ring.fresh).filter (·.1 == east)).map (·.2)

/-- A control cell has a frame of its own. -/
def isControl (c : Cell) : Bool := match c with | .control _ _ _ => true | _ => false

/-- The cells that start in a frame with `room` bytes left, at most `k` of them (14 R356). -/
def startingIn : Nat → Nat → List Cell → List Cell
  | _, _, [] => []
  | _, 0, _ => []
  | room, k + 1, c :: t => if room = 0 || isControl c then [] else c :: startingIn (room - (cellBytes c).length) k t

/-- A list without its first `n` entries that leave by a port. -/
def without (east : Bool) : Nat → List (Bool × Cell) → List (Bool × Cell)
  | 0, l => l
  | _, [] => []
  | n + 1, x :: t => if x.1 == east then without east n t else x :: without east (n + 1) t

/-- The first `n` cells of a port are taken to be sent. -/
def dropCells (east : Bool) (n : Nat) (s : State) : State :=
  let k := (s.ring.tx.filter (·.1 == east)).length
  { s with ring := { s.ring with tx := without east n s.ring.tx, fresh := without east (n - k) s.ring.fresh } }

/-- A frame of number `n`, sealed (14 Table 14.7). -/
def sealFrame (n first : Nat) (kinds : BitVec 24) (l : List Byte) : Frame :=
  let bytes := (l ++ List.replicate 248 0).take 248
  let ctl : Word := pack 64 [(n % 256, 63, 56), (first, 55, 48), (kinds.toNat, 47, 24)]
  ⟨bytes, ctl ||| (crc24 ⟨bytes, ctl⟩).setWidth 64⟩

/-- The next frame of a port: the rest of a cell begun, then the cells that wait, at most 24, the rest zero; a ring control cell goes alone,
and a frame without a cell is filler (14 R356, R357). -/
def packFrame (east : Bool) (s : State) : Frame × State :=
  let p := portOf s east
  match p.left, cellsFor s east with
  | [], .control t d l :: _ => (sealFrame p.slot 0 (BitVec.allOnes 24) (cellBytes (.control t d l)), dropCells east 1 s)
  | left, cs =>
    let now := startingIn (248 - left.length) 24 cs
    let l := left ++ now.flatMap cellBytes
    (sealFrame p.slot (if now.isEmpty then 255 else left.length) (maskOf 24 24 fun i => match now[i]? with | some (.key _) => true | _ => false) l,
      modPort east (fun p => { p with left := l.drop 248 }) (dropCells east now.length s))

/-- A port has nothing but filler to send, and no injection meets it. -/
def onlyFiller (s : State) (east : Bool) : Bool :=
  let p := portOf s east
  p.left.isEmpty && p.heldFrame.isNone && (cellsFor s east).isEmpty && !brxSends s east

/-- A frame leaves in the next frame slot of a port; pure filler is not recorded. -/
def frameOut (east : Bool) (f : Option Frame) (s : State) : State :=
  modPort east (fun p => { p with slot := p.slot + 1, sent := p.sent ++ f.toList }) s

/-- The next frame slot of a port is filled: with a frame that injection has held back, else with the next frame, past injection, which
leaves filler in the place of a frame dropped or held (14 R365). -/
def sendFrame (east : Bool) (s : State) : State :=
  match (portOf s east).heldFrame with
  | some f => frameOut east (some f) (modPort east (fun p => { p with heldFrame := none }) s)
  | none =>
    let (f, s) := packFrame east s
    let (f, h, s) := brxFrame east true f s
    frameOut east f (modPort east (fun p => { p with heldFrame := h }) s)

/-- The next `n` frame slots of a port. -/
def sendFrames (east : Bool) : Nat → State → State
  | 0, s => s
  | n + 1, s => if onlyFiller s east then modPort east (fun p => { p with slot := p.slot + n + 1 }) s else sendFrames east n (sendFrame east s)

/-- Frame slots of a port that have begun and are not yet filled. -/
def framesDue (s : State) (east : Bool) : Nat :=
  let p := portOf s east
  if p.st ≠ .up then 0 else frameNext s.part.grade p.upAt s.cclk - p.slot

/-- The frames of both cascade ports that began before this CCLK have left, each with the cells that waited for it; done before a cell
joins, and after every command. Log 65 (DESIGN CHOICE). -/
def pumpFrames (s : State) : State :=
  let s := sendFrames true (framesDue s true) s
  sendFrames false (framesDue s false) s

/-- Room for cells is short: fewer than 16 can be reserved in a direction in which cells wait (07 R178). Log 40 (DEDUCED). -/
def ringShort (s : State) : Bool :=
  [true, false].any fun east =>
    let n := (cellsFor s east).length
    n != 0 && decide (Config.ringRoom < n + 16)

end Sys2Proof.Machine
end

