-- ==== Sys2Proof/Machine/Array.lean ====
section
/-! DEFINITION. The match array: rows, compare, contact sheets, best match (02 R32-R56; 03 R81, R82; 05 R120-R125; 06 R142). -/

namespace Sys2Proof.Machine

/-! ### Rows and entries -/

/-- Row `r` of physical block `b`. -/
def rowAt (k : Chan) (b r : Nat) : Row := mgetD k.rows (b * 8192 + r) emptyRow

/-- Row of segment 0 of entry `e` within its block. -/
def rowOf (w : Word) (e : Nat) : Nat := e % perBlock w * cfgG w

/-- Segment `i` of a plane. -/
def seg (x : BitVec 640) (i : Nat) : BitVec 80 := x.extractLsb' (80 * i) 80

/-- A plane from its rows. -/
def planeOf (rows : List (BitVec 80)) : BitVec 640 :=
  BitVec.ofNat 640 (rows.zipIdx.foldl (fun n x => n + x.1.toNat * 2 ^ (80 * x.2)) 0)

def rowValid (r : Row) : Bool := bitAt r.ctl 3
/-- Membership in a negative, false = A (02 Table 2.1). -/
def rowIn (r : Row) (neg : Bool) : Bool := bitAt r.ctl (if neg then 1 else 2)

/-- Control bits of a row of an entry. -/
def ctlOf (valid inA inB head : Bool) : BitVec 4 := pack 4 [(b2n valid, 3, 3), (b2n inA, 2, 2), (b2n inB, 1, 1), (b2n head, 0, 0)]

/-- The rows of entry `e` of partition `p` as they stand in its serving place in channel `m`. -/
def entryRows (s : State) (m : Chn) (w : Word) (p e : Nat) : List Row :=
  match posOf s m p (e / perBlock w) with
  | none => []
  | some pos => (List.range (cfgG w)).map fun i => rowAt (chan s m) (servePhys (chan s m) pos) (rowOf w e + i)

/-- The channel of the group whose table serves reads of a block: the lead, or the one of a SPAN pair that holds it. -/
def homeOf (s : State) (c : Chn) (p b : Nat) : Chn :=
  ((groupOf s c).find? fun m => (posOf s m p b).isSome).getD c

/-- Index of an associated-data or priority word: logical row position (05 R120). -/
def adIdx (pos r : Nat) : Nat := pos * 8192 + r

/-- Locator of an entry's word in memories 0, 1, 11 and 12 (13 Table 13.9). -/
def entLoc (m : Chn) (p e k : Nat) : Nat := m * 2 ^ 30 + p * 2 ^ 24 + e * 16 + k

/-- Keys of the heal queue for the memories of a channel (13 R318). -/
def healAd (m : Chn) (i : Nat) : Nat := 0x1000000 * (1 + m) + i
def healPrio (m : Chn) (i : Nat) : Nat := 0x1000000 * (5 + m) + i / 4
def healSheet (m : Chn) (i : Nat) : Nat := 0x1000000 * (9 + m) + i / 4

/-- Names of words of a channel's memories for 13 R316: associated-data word, priority and sheet counter `i`. -/
def keyAd (m : Chn) (i : Nat) : Nat := m * 2 ^ 20 + i
def keyHalf (m : Chn) (i : Nat) : Nat := m * 2 ^ 20 + i / 4

/-- Associated-data word `i` of a channel, the word that holds priority `i`, and the word that holds sheet counter `i`. -/
def adWord (k : Chan) (i : Nat) : Option SWord := under k.admBad k.adm i
def prioWord (k : Chan) (i : Nat) : Option SWord := under k.prioBad k.prio (i / 4)
def sheetWord (k : Chan) (i : Nat) : Option SWord := under k.sheetBad k.sheet (i / 4)

/-- Associated-data word `i` as a lookup admitted in CCLK `adm` reads it: an AD_WR made after that CCLK does not reach it (06 R143). -/
def adAt (k : Chan) (adm i : Nat) : Option SWord :=
  match k.adWas.find? fun x => x.1 == i && decide (x.2.1 > adm) with
  | some x => x.2.2
  | none => adWord k i

/-- Reads word `k` of an entry's associated data for a lookup admitted in CCLK `adm`: value, zero when poisoned, and whether it is
poisoned. -/
def readAdAt (adm : Nat) (m : Chn) (p e k i : Nat) (s : State) : Word × Bool × State :=
  match adAt (chan s m) adm i with
  | none => (0, false, s)
  | some x =>
    let (v, h, mask) := decodeWord x
    let s := noteRead 0 (keyAd m i) (entLoc m p e k) h mask s
    match h with
    | .correct => (v, false, s)
    | .correctable => (v, false, offerHeal (healAd m i) s)
    | .poisoned => (0, true, s)

/-- Reads an entry's priority; a poisoned one counts as zero (05 R125). -/
def readPrio (m : Chn) (p e i : Nat) (s : State) : BitVec 16 × Bool × State :=
  let (v, h, mask) := readHalf (prioWord (chan s m) i) i
  let s := noteRead 1 (keyHalf m i) (entLoc m p e 0) h mask s
  match h with
  | .correct => (v, false, s)
  | .correctable => (v, false, offerHeal (healPrio m i) s)
  | .poisoned => (0, true, s)

/-- Reads the `g` associated-data words of an entry for a lookup admitted in CCLK `adm`. -/
def readAdsAt (adm : Nat) (m : Chn) (p e i : Nat) : Nat → Nat → State → List Word × List Bool × State
  | 0, _, s => ([], [], s)
  | n + 1, k, s =>
    let (v, b, s) := readAdAt adm m p e k (i + k) s
    let (vs, bs, s) := readAdsAt adm m p e i n (k + 1) s
    (v :: vs, b :: bs, s)

/-- Reads the `g` associated-data words of an entry as they stand. -/
def readAds (m : Chn) (p e i n : Nat) (s : State) : List Word × List Bool × State := readAdsAt s.cclk m p e i n 0 s

/-! ### Compare (02 R34-R41) -/

/-- A ternary half-row matches (02 R34). -/
def ternMatch (d m k : BitVec 40) : Bool := (d ^^^ k) &&& m == 0

/-- A range slot matches (02 R40). -/
def rangeMatch (d m k : BitVec 40) : Bool :=
  let lo := fld d 39 24
  let hi := fld m 39 24
  let v := fld k 39 24
  let inR := if lo ≤ hi then decide (lo ≤ v) && decide (v ≤ hi) else decide (v ≥ lo) || decide (v ≤ hi)
  inR && ((d ^^^ k) &&& m &&& 0xff) == 0

/-- Segment `i` of an entry matches the lookup key (02 R35, R41). -/
def segMatch (w : Word) (i : Nat) (r : Row) (k : BitVec 640) : Bool :=
  let ks := seg k i
  (List.range 2).all fun h =>
    let d := r.d.extractLsb' (40 * h) 40
    let m := r.m.extractLsb' (40 * h) 40
    let x := ks.extractLsb' (40 * h) 40
    if cfgRange w (2 * i + h) then rangeMatch d m x else ternMatch d m x

/-- The lookup key: W bits of the key image from bit 8 x `key_off` (03 R67). -/
def lookupKey (w : Word) (lk : Reg) (key : Key) : BitVec 640 :=
  BitVec.ofNat 640 (key.toNat >>> (8 * lkOff lk) % 2 ^ cfgW w)

/-- The slice value of a lookup key (02 R48). -/
def sliceOf (w : Word) (k : BitVec 640) : Nat := (k.toNat >>> cfgPos w) % 256

/-- The slice values that an entry matches (02 R49). -/
def sliceVals (w : Word) (d m : BitVec 640) : List Nat :=
  let sd : Byte := BitVec.ofNat 8 (d.toNat >>> cfgPos w)
  let sm : Byte := BitVec.ofNat 8 (m.toNat >>> cfgPos w)
  below 256 fun v => (BitVec.ofNat 8 v ^^^ sd) &&& sm == 0

/-- An entry that matches and takes part: priority, entry number, channel, block position, row, poisoned priority. -/
structure Cand where
  prio : BitVec 16
  entry : Nat
  m : Chn
  pos : Nat
  row : Nat
  pois : Bool
  deriving DecidableEq, Repr

/-- `a` ranks before `b` (02 R43 on one device). -/
def better (a b : Cand) : Bool :=
  if a.prio != b.prio then decide (a.prio.toNat > b.prio.toNat) else decide (a.entry < b.entry)

/-- The entries of block position `pos` of channel `m` that match and take part (02 R36, R41). -/
def blockHits (s : State) (w : Word) (neg : Bool) (k : BitVec 640) (m : Chn) (pos lb : Nat) : List (Nat × Nat) :=
  let c := chan s m
  let ph := servePhys c pos
  (c.rows.filter fun r => r.1 / 8192 == ph).filterMap fun r =>
    let i := r.1 % 8192
    if i % cfgG w == 0 && rowValid r.2 && rowIn r.2 neg &&
        (List.range (cfgG w)).all (fun j => segMatch w j (rowAt c ph (i + j)) k)
    then some (lb * perBlock w + i / cfgG w, i) else none

/-- Reads the priorities of hits and keeps the best of them (02 R43, R44). -/
def bestOf (m : Chn) (p pos : Nat) : List (Nat × Nat) → Option Cand → State → Option Cand × State
  | [], best, s => (best, s)
  | h :: t, best, s =>
    let (pr, bad, s) := readPrio m p h.1 (adIdx pos h.2) s
    let x : Cand := ⟨pr, h.1, m, pos, h.2, bad⟩
    let best := match best with
      | none => some x
      | some b => if better x b then some x else some b
    bestOf m p pos t best s

/-! ### Contact sheets (02 R48-R52) -/

/-- Contact-sheet counter of value `v` of physical block `b`, and whether its word is poisoned. -/
def sheetCnt (k : Chan) (b v : Nat) : Nat × Bool :=
  let (x, h, _) := readHalf (sheetWord k (b * 256 + v)) (b * 256 + v)
  (x.toNat, h == .poisoned)

/-- Sets a contact-sheet counter; the others of its word stay as stored. -/
def putSheet (b v n : Nat) (k : Chan) : Chan :=
  { k with sheet := writeHalf (b * 256 + v) (BitVec.ofNat 16 n) k.sheet, sheetBad := k.sheetBad.filter (· != (b * 256 + v) / 4) }

/-- A poisoned counter word: its block's bits count as 1 until it has been rebuilt (02 R52). Log 49 (DEDUCED). -/
def forceSheet (m : Chn) (b : Nat) (s : State) : State :=
  bump (chAddr m 0x2030) (modChan m (fun k => if k.forced.contains b then k
    else { k with forced := b :: k.forced, rebuild := k.rebuild ++ [b] }) s)

/-- A read of the word of counter `i` of channel `m`, with what it counts and reports (13 R315, R316, R318; 02 R52). -/
def noteSheet (m : Chn) (i : Nat) (s : State) : State :=
  let (_, h, mask) := readHalf (sheetWord (chan s m) i) i
  let s := noteRead 10 (keyHalf m i) 0 h mask s
  match h with
  | .correct => s
  | .correctable => offerHeal (healSheet m i) s
  | .poisoned => forceSheet m (i / 256) s

/-- Changes the counters of the values of an entry by one, up or down; a poisoned word stays as it is until its block is rebuilt. -/
def stepSheet (up : Bool) (b : Nat) (vs : List Nat) (k : Chan) : Chan :=
  vs.foldl (fun k v =>
    let (n, bad) := sheetCnt k b v
    if bad then k else putSheet b v (if up then n + 1 else n - 1) k) k

/-- The same, each word read and reported once; a write of a word cancels the heal that its read offered (13 R318). -/
def changeSheet (up : Bool) (m : Chn) (b : Nat) (vs : List Nat) (s : State) : State :=
  let ws := (vs.map fun v => (b * 256 + v) / 4).eraseDups
  let s := ws.foldl (fun s w => noteSheet m (4 * w) s) s
  let written := ws.filter fun w => (readWord (sheetWord (chan s m) (4 * w))).2.1 != .poisoned
  written.foldl (fun s w => cancelHeal (healSheet m (4 * w)) s) (modChan m (stepSheet up b vs) s)

/-- Decrements due by CCLK `c` are made (06 R142). -/
def flushDecs (m : Chn) (c : Nat) (s : State) : State :=
  let (due, rest) := (chan s m).pendDec.partition fun d => decide (d.1 ≤ c)
  due.foldl (fun s d => changeSheet false m d.2.1 d.2.2 s) (modChan m (fun k => { k with pendDec := rest }) s)

/-- An increment made by CCLK `c` counts value `v` of block `b` for a write step still to come (06 R142). -/
def risen (k : Chan) (c b v : Nat) : Bool := k.incs.any fun d => decide (d.1 ≤ c) && d.2.1 == b && d.2.2.contains v

/-- Decrements after a write in CCLK `c`, 32 counters per CCLK (06 R142, R146). -/
def laterDecs (c b : Nat) (vs : List Nat) (k : Chan) : Chan :=
  { k with pendDec := k.pendDec ++ ((chunks 32 8 vs).zipIdx.map fun x => (c + 1 + x.2, b, x.1)) }

/-! ### Searches in the pipeline -/

/-- The channels whose arrays a search counted against `ch` compares in (03 R76, R77). -/
def searchChans (s : State) (ch : Chn) : List Chn :=
  match lockMode s ch with
  | 1 | 2 => groupOf s ch
  | _ => [ch]

/-- The primary channel of a group: the one a TWIN pair's results come from (03 R81). -/
def primaryOf (s : State) (c : Chn) : Chn :=
  if lockMode s c == 1 && regB s (chAddr (leadOf s c) 0x3000) 4 then chn (leadOf s c + 1) else leadOf s c

/-- One activated block: lookup, channel and position as one number. -/
def actCode (j : Nat) (m : Chn) (pos : Nat) : Nat := (j * 4 + m) * 64 + pos

/-- The blocks of the partitions that a search's lookups name, each as the number of an activation and its logical block: taken at
admission, so that a later PART_CFG changes nothing for the search (03 R63). -/
def blocksOf (s : State) (q : Srch) : List (Nat × Nat) :=
  q.prof.lk.zipIdx.flatMap fun x => (searchChans s q.ch).flatMap fun m =>
    ((chan s m).owner.filter fun o => o.2.1 == lkPart x.1).map fun o => (actCode x.2 m o.1, o.2.2)

/-- Lookup and channel of an activation. -/
def actLk (a : Nat) : Nat := a / 256
def actChan (a : Nat) : Chn := chn (a / 64)

/-- Slice value of the key of lookup `j` (02 R48). -/
def sliceFor (q : Srch) (j : Nat) : Nat := sliceOf (nth q.cfg j 0) (lookupKey (nth q.cfg j 0) (nth q.prof.lk j 0) q.key)

/-- The blocks that a search activates with the sheets of CCLK `c` (02 R50, R52). -/
def actsAt (q : Srch) (c : Nat) (s : State) : List Nat × State :=
  q.blks.foldl (fun acc x =>
    let (l, s) := acc
    let a := x.1
    let m := actChan a
    let b := servePhys (chan s m) (a % 64)
    let all := !cfgSlice (nth q.cfg (actLk a) 0) || regB s (chAddr m 0x2000) 0
    if all || (chan s m).forced.contains b then (l ++ [a], s)
    else
      let v := sliceFor q (actLk a)
      let (n, bad) := sheetCnt (chan s m) b v
      (if bad || n != 0 || risen (chan s m) c b v then l ++ [a] else l, noteSheet m (b * 256 + v) s)) ([], s)

/-- Exposure of one activation in channel `m` (02 R53, Table 2.12). -/
def blockEu (s : State) (m : Nat) : Nat := (s.part.blockEu.toList.getD (m % 4) 0).toNat

/-- Counts activations of a search admitted in CCLK `adm`, and debits their exposure (02 R53; 11 R263). -/
def countActs (l : List Nat) (adm : Nat) (s : State) : State :=
  let s := l.foldl (fun s a => addStat (chAddr (actChan a) 0x2028) 1 s) s
  let eu := l.foldl (fun n a => n + blockEu s (actChan a)) 0
  { s with xpo := { s.xpo with debits := s.xpo.debits ++ [(adm + 3, eu)] } }

/-- The activation vector of an admitted search: counted, and its exposure debited 3 CCLK after admission (02 R50, R53; 11 R263). -/
def settleActs (q : Srch) (adm : Nat) (s : State) : Srch × State :=
  let s := (searchChans s q.ch).foldl (fun s m => flushDecs m (adm + 2) s) s
  let (l, s) := actsAt q (adm + 2) s
  ({ q with acts := some l }, countActs l adm s)

/-- The winner's rows were under correction in CCLK `c`, or the entry is in the bad-entry table (13 R322, R323). -/
def suspectAt (s : State) (x : Cand) (w : Word) (p c : Nat) : Bool :=
  let k := chan s x.m
  let b := servePhys k x.pos
  k.corr.any (fun y => y.blk == b && decide (x.row ≤ y.row) && decide (y.row < x.row + cfgG w) && decide (y.since ≤ c)) ||
    k.bad.contains (p, x.entry)

/-- The result of lookup `j` over the blocks it activates in the channels `ms`, in compare cycle `c` (02 R43-R46, R54-R56; 05 R121-R125). -/
def compareIn (q : Srch) (j : Nat) (ms : List Chn) (label : Chn) (c : Nat) (s : State) : LkRes × State :=
  let w := nth q.cfg j 0
  let lk := nth q.prof.lk j 0
  let p := lkPart lk
  let key := lookupKey w lk q.key
  let neg := nth q.negs j false
  let step := fun (acc : (Option Cand × Nat) × State) (a : Nat) =>
    let ((best, n), s) := acc
    let m := actChan a
    let pos := a % 64
    if actLk a == j && ms.contains m then
      let lb := ((q.blks.find? (·.1 == a)).map (·.2)).getD 0
      let hs := blockHits s w neg key m pos lb
      let (best, s) := bestOf m p pos hs best s
      ((best, n + hs.length), s)
    else ((best, n), s)
  let ((best, n), s) := (q.acts.getD []).foldl step ((none, 0), s)
  let base : LkRes := { dev := s.dev.devId, chan := BitVec.ofNat 2 label, partition := BitVec.ofNat 6 p }
  match best with
  | none => ({ base with ad := List.replicate (cfgG w) 0, adPois := List.replicate (cfgG w) false }, s)
  | some x =>
    let sus := suspectAt s x w p c
    let (ad, bad, s) := readAdsAt (c - 6) x.m p x.entry (adIdx x.pos x.row) (cfgG w) 0 s
    ({ base with home := BitVec.ofNat 2 x.m, hit := true, multi := decide (n ≥ 2), suspect := sus, prio := x.prio, count := min n 511, entry := x.entry,
                 ad := ad, adPois := bad, prioPois := x.pois }, s)

/-- The result word (02 Table 2.8). -/
def resultWord (cause : BitVec 4) (r : LkRes) : Word :=
  pack 64 [(b2n r.hit, 63, 63), (b2n r.multi, 62, 62), (b2n r.suspect, 61, 61), (b2n r.part, 60, 60), (cause.toNat, 59, 56),
    (r.prio.toNat, 55, 40), (r.dev.toNat, 39, 37), (r.chan.toNat, 36, 35), (r.partition.toNat, 34, 29), (r.count, 28, 20),
    (r.entry, 19, 0)]

/-- Lookup `j` of a search (03 R80-R82): TWIN channels are compared with each other, SPAN channels merged. -/
def compareLk (q : Srch) (j c : Nat) (s : State) : LkRes × State :=
  let lead := leadOf s q.ch
  if lockMode s q.ch == 1 then
    let pm := primaryOf s q.ch
    let sm := if pm == lead then chn (lead + 1) else lead
    let (a, s) := compareIn q j [pm] pm c s
    let (b, s) := compareIn q j [sm] sm c s
    if a.hit == b.hit && a.prio == b.prio && a.entry == b.entry && a.count == b.count && a.ad == b.ad && a.adPois == b.adPois
    then (a, s)
    else ({ a with suspect := true, sec := some (b.entry, b.count, resultWord q.cause b) }, s)
  else if lockMode s q.ch == 2 then compareIn q j (groupOf s q.ch) lead c s
  else compareIn q j [q.ch] q.ch c s

/-- The compare cycle `c` of an admitted search (02 R37), kept for the free cycles of 06 R147. Log 10 (DEDUCED). -/
def settleCmp (q : Srch) (c : Nat) (s : State) : Srch × State :=
  let (l, s) := (List.range q.prof.lk.length).foldl (fun acc j =>
    let (l, s) := acc
    let (r, s) := compareLk q j c s
    (l ++ [r], s)) ([], s)
  let s := (q.acts.getD []).foldl (fun s a => modChan (actChan a) (fun k =>
    { k with cmps := (c, a % 64) :: k.cmps.filter fun x => decide (c < x.1 + 80) }) s) s
  ({ q with cmp := some l }, s)

/-- Brings one search of the pipeline up to CCLK `c`. Log 10 (DEDUCED). -/
def settleOne (c : Nat) (q : Srch) (s : State) : Srch × State :=
  match q.stage with
  | .pipe adm =>
    let (q, s) := if q.acts.isNone && decide (adm + 2 ≤ c) then settleActs q adm s else (q, s)
    if q.cmp.isNone && decide (adm + 6 ≤ c) then settleCmp q (adm + 6) s else (q, s)
  | _ => (q, s)

/-- Every search has activated and compared as far as CCLK `c` goes: done before anything changes rows, sheets or tables in `c`. -/
def settlePipe (c : Nat) (s : State) : State :=
  let (l, s) := s.searches.foldl (fun acc q =>
    let (l, s) := acc
    let (q, s) := settleOne c q s
    (l ++ [q], s)) ([], { s with searches := [] })
  { s with searches := l ++ s.searches }

/-! ### Row writes -/

/-- Stores a row in physical block `b`; a row under correction is so no longer (13 R322). -/
def putRow (b r : Nat) (x : Row) (k : Chan) : Chan :=
  { k with rows := mset k.rows (b * 8192 + r) x, corr := k.corr.filter fun y => !(y.blk == b && y.row == r) }

/-- Changes every row of entry `e` of partition `p` in each place of channel `m` that a write step writes; `f` gives row `i` its new
content from the old, or none. -/
def mapRows (w : Word) (p e : Nat) (f : Nat → Row → Option Row) (m : Chn) (s : State) : State :=
  match posOf s m p (e / perBlock w) with
  | none => s
  | some pos =>
    modChan m (fun k =>
      (writePhys k pos).foldl (fun k b =>
        (List.range (cfgG w)).foldl (fun k i =>
          match f i (rowAt k b (rowOf w e + i)) with
          | none => k
          | some x => putRow b (rowOf w e + i) x k) k) k) s

/-- The planes of an entry in physical block `b`. -/
def planesIn (k : Chan) (w : Word) (b e : Nat) : BitVec 640 × BitVec 640 :=
  let rs := (List.range (cfgG w)).map fun i => rowAt k b (rowOf w e + i)
  (planeOf (rs.map (·.d)), planeOf (rs.map (·.m)))

/-- The lookups that compare after CCLK `n` and match a new entry of block position `pos` of partition `p` activate its block although they
read its sheet before the increments: the pre-screen never changes a result (02 R51). Log 49 (DEDUCED). -/
def reachAll (p pos : Nat) (vs : List Nat) (m : Chn) (s : State) : State :=
  s.searches.foldl (fun s q =>
    match q.stage, q.acts, q.cmp with
    | .pipe adm, some l, none =>
      let more := (q.blks.map (·.1)).filter fun a => actChan a == m && a % 64 == pos && lkPart (nth q.prof.lk (actLk a) 0) == p &&
        !l.contains a && vs.contains (sliceFor q (actLk a))
      if more.isEmpty then s
      else countActs more adm { s with searches := s.searches.map fun x => if x.cmd.id = q.cmd.id then { x with acts := some (l ++ more) } else x }
    | _, _, _ => s) s

/-- Sheet counters of entry `e` in channel `m` for a write in CCLK `c`: the values of the new planes, if the entry is to be valid, are
counted, and those of the old planes, if it was, uncounted after it (06 R142). Log 49 (DEDUCED). -/
def sheetFor (w : Word) (p e c : Nat) (new : Option (BitVec 640 × BitVec 640)) (m : Chn) (s : State) : State :=
  if !cfgSlice w then s
  else match posOf s m p (e / perBlock w) with
    | none => s
    | some pos =>
      let s := (writePhys (chan s m) pos).foldl (fun s b =>
        let k := chan s m
        let was := rowValid (rowAt k b (rowOf w e))
        let old := planesIn k w b e
        let s := match new with | some x => changeSheet true m b (sliceVals w x.1 x.2) s | none => s
        if was then modChan m (laterDecs c b (sliceVals w old.1 old.2)) s else s) (modChan m (fun k => { k with incs := [] }) s)
      match new with | some x => reachAll p pos (sliceVals w x.1 x.2) m s | none => s

/-- The increments that the step with the new planes `new` of entry `e` needs, from CCLK `n` on, 32 counters a CCLK (06 R142, R146). -/
def startIncs (w : Word) (p e n : Nat) (new : Option (BitVec 640 × BitVec 640)) (m : Chn) (s : State) : State :=
  let l := match new, posOf s m p (e / perBlock w) with
    | some x, some pos => if cfgSlice w then (writePhys (chan s m) pos).flatMap fun b =>
        (chunks 32 8 (sliceVals w x.1 x.2)).zipIdx.map fun y => (n + y.2, b, y.1) else []
    | _, _ => []
  modChan m (fun k => { k with incs := l }) s

/-- Stores a priority with its check bits; a word no longer poisoned is armed again (13 R316, R317). -/
def storePrio (w : Word) (p e : Nat) (x : SWord) (m : Chn) (s : State) : State :=
  match posOf s m p (e / perBlock w) with
  | none => s
  | some pos =>
    let i := adIdx pos (rowOf w e)
    let s := cancelHeal (healPrio m i) (modChan m (fun k => { k with prio := putHalf i x k.prio, prioBad := k.prioBad.filter (· != i / 4) }) s)
    if (readHalf (prioWord (chan s m) i) i).2.1 = .poisoned then s else rearm 1 (keyHalf m i) s

/-- Writes the priority of an entry. -/
def putPrio (w : Word) (p e : Nat) (v : BitVec 16) (m : Chn) (s : State) : State := storePrio w p e (encode (v.setWidth 64)) m s

/-- Stores associated-data words `first`, `first + 1`, ... of an entry with their check bits. -/
def storeAds (w : Word) (p e first : Nat) (vs : List SWord) (m : Chn) (s : State) : State :=
  match posOf s m p (e / perBlock w) with
  | none => s
  | some pos =>
    (vs.zipIdx).foldl (fun s x =>
      let i := adIdx pos (rowOf w e + first + x.2)
      let s := cancelHeal (healAd m i) (modChan m (fun k => { k with adm := mset k.adm i x.1, admBad := k.admBad.filter (· != i) }) s)
      if (decodeWord x.1).2.1 = .poisoned then s else rearm 0 (keyAd m i) s) s

/-- Writes associated-data words `first`, `first + 1`, ... of an entry. -/
def putAds (w : Word) (p e first : Nat) (vs : List Word) (m : Chn) (s : State) : State := storeAds w p e first (vs.map encode) m s

/-- Keeps the associated-data words that an AD_WR replaces in CCLK `n` for the lookups admitted before it (06 R143). Log 10 (DEDUCED). -/
def keepAds (w : Word) (p e first len n : Nat) (m : Chn) (s : State) : State :=
  match posOf s m p (e / perBlock w) with
  | none => s
  | some pos => modChan m (fun k =>
      let old := (k.adWas.filter fun x => decide (n ≤ x.2.1 + 8))
      { k with adWas := old ++ (List.range len).map fun j => let i := adIdx pos (rowOf w e + first + j); (i, n, adWord k i) }) s

/-- An entry leaves the bad-entry table (13 R323). -/
def unbad (p e : Nat) (m : Chn) (s : State) : State := modChan m (fun k => { k with bad := k.bad.filter (· != (p, e)) }) s

end Sys2Proof.Machine
end

