-- ==== Sys2Proof/Machine/Power.lean ====
section
/-! DEFINITION. Exposure balance, channel power states, pre-exposure windows, device DARKROOM (11 R262-R284). -/

namespace Sys2Proof.Machine

/-! ### The exposure balance (11 R263, R264, R267) -/

/-- Effective array budget in mW (11 R264). -/
def effOf (s : State) : Nat := min (regF s 0x20000 16 0) (regF s 0x20004 16 0 - s.xpo.otherMw)

/-- Recomputes the effective budget. Log 16 (DESIGN CHOICE). -/
def setEff (s : State) : State := { s with xpo := { s.xpo with effMw := effOf s } }

/-- Refill per CCLK in EU (11 R263). -/
def refillEu (s : State) : Nat :=
  match s.part.grade with
  | .g12 => s.xpo.effMw * 4 / 5
  | .g10 => s.xpo.effMw

/-- Cap of the balance. -/
def burstEu (s : State) : Int := regF s 0x20008 23 0

/-- Posts XPO_DEFICIT in CCLK `n` (11 Table 11.9). -/
def deficitEvt (n : Nat) (enter : Bool) (s : State) : State :=
  let ev : Event := { type := 0x51, source := 0, w1 := pack 64 [(b2n enter, 63, 63), ((BitVec.ofInt 32 s.xpo.bal).toNat, 31, 0)],
                      w2 := pack 64 [(s.xpo.effMw, 16, 0)] }
  postAt n 8 0 (devQ s) ev { s with xpo := { s.xpo with deficit := enter } }

/-- Adds the refill of every CCLK up to CCLK `c` (11 R263). -/
def refillTo (c : Nat) (s : State) : State :=
  let n := c - s.xpo.refAt
  if n = 0 then s
  else { s with xpo := { s.xpo with bal := min (burstEu s) (s.xpo.bal + (n * refillEu s : Nat)), refAt := c
                                    was := if n = 1 then s.xpo.bal else min (burstEu s) (s.xpo.bal + ((n - 1) * refillEu s : Nat)) } }

/-- The balance at the start of the present CCLK, once it has been brought up to the CCLK before (11 R265). -/
def startBal (s : State) : Int := if s.xpo.refAt = s.cclk then s.xpo.was else s.xpo.bal

/-- The deficit ends with CCLK `n` where the balance after it is zero or above (11 R267). -/
def leaveDeficit (n : Nat) (s : State) : State :=
  if s.xpo.deficit && decide (s.xpo.bal ≥ 0) then deficitEvt n false s else s

/-- CCLKs without a debit pass, up to CCLK `c`; a deficit ends in the first after which the balance is zero or above (11 R263, R267). -/
def refillUp (c : Nat) (s : State) : State :=
  let k := if s.xpo.deficit && refillEu s != 0 then cdiv (-s.xpo.bal).toNat (refillEu s) else 0
  let s := if k != 0 && decide (s.xpo.refAt + k ≤ c) then leaveDeficit (s.xpo.refAt + k) (refillTo (s.xpo.refAt + k) s) else s
  refillTo c s

/-- Removes the debits of CCLK `n` (11 R263, R267). -/
def debitEu (n d : Nat) (s : State) : State :=
  let before := s.xpo.bal
  let b := before - (d : Nat)
  let ovr := if b < 0 then (if before > 0 then b.natAbs else d) else 0
  let e := s.xpo.expRem + d
  let o := s.xpo.ovrRem + ovr
  let s := { s with xpo := { s.xpo with bal := max b (-(2 ^ 31)), expRem := e % 65536, ovrRem := o % 65536 } }
  let s := addStat 0x20038 (o / 65536) (addStat 0x20030 (e / 65536) s)
  if !s.xpo.deficit && decide (b < -(regF s 0x20014 23 0 : Int)) then deficitEvt n true s else leaveDeficit n s

/-- The CCLK of the next debit: one already reported, or that of a search whose activation is yet to be. -/
def nextDebit (s : State) : Option Nat :=
  let a := s.xpo.debits.map (·.1)
  let b := s.searches.filterMap fun q => match q.stage with
    | .pipe adm => if q.acts.isNone then some (adm + 3) else none
    | _ => none
  (a ++ b).min?

/-- Makes the debits of the CCLKs of a list, each after its refill. -/
def debitAll : List Nat → State → State
  | [], s => s
  | d :: t, s =>
    let (now, rest) := s.xpo.debits.partition fun x => x.1 == d
    debitAll t (debitEu d (now.foldl (fun n x => n + x.2) 0)
      (refillTo d (refillUp (d - 1) { s with xpo := { s.xpo with debits := rest } })))

/-- The balance as it stands after CCLK `c` (11 R263). -/
def settleXpo (c : Nat) (s : State) : State :=
  let s := settlePipe c s
  let due := ((s.xpo.debits.map (·.1)).filter (· ≤ c)).mergeSort (· ≤ ·)
  refillUp c (debitAll due.eraseDups s)

/-- EXPOSURE_REFILL (11 R263). -/
def exposureRefillRun (s : State) : State := settleXpo s.cclk s

/-- EXPOSURE_DEBIT: the debits of one CCLK, after its refill (11 R263). -/
def exposureDebitRun (s : State) : State :=
  match nextDebit s with
  | none => s
  | some d =>
    let s := advanceTo d s
    settleXpo s.cclk s

/-- A background row operation is debited (11 R282). -/
def rowDebit (s : State) : State := { s with xpo := { s.xpo with debits := s.xpo.debits ++ [(s.cclk, s.part.rowEu.toNat)] } }

/-- OTHER_MW_RECOMPUTE: the non-array estimate is a free value within its bound; the CCLKs before keep the refill they had (11 R263, R264).
Log 16 (DESIGN CHOICE). -/
def otherMwRun (s : State) : State :=
  let (v, s) := draw (settleXpo s.cclk s)
  let top := match s.part.grade with | .g12 => 45001 | .g10 => 32001
  setEff { s with xpo := { s.xpo with otherMw := v.toNat % top } }

/-! ### XPO_SET (11 R284, R285) -/

/-- A set of budget register values that 11 R285 refuses: array and envelope budget, burst, reserve, hold limits. Log 74 (DESIGN CHOICE). -/
def xpoBad (arr env burst resv hold : Nat) : Bool :=
  decide (arr > 100000) || decide (env < 10000) || decide (env > 100000) || decide (burst < 65536) || decide (resv > burst) ||
    decide (hold / 2 ^ 16 % 2 ^ 14 > 10000) || decide (hold % 2 ^ 10 > 1000)

/-- XPO_SET (11 R284). Log 74 (DESIGN CHOICE). -/
def xpoSetRun (c : Cmd) (s : State) : State :=
  let hi := fun i => fld (payW c i) 63 32
  let lo := fun i => fld (payW c i) 31 0
  let rsv := decide (hi 0 ≥ 2 ^ 17) || decide (lo 0 ≥ 2 ^ 17) || decide (hi 1 ≥ 2 ^ 24) || decide (lo 1 ≥ 2 ^ 24) ||
    (BitVec.ofNat 32 (hi 2) &&& ~~~(ones 29 16 ||| ones 9 0)) != 0 || lo 2 != 0
  match firstBad [(payN c != 3, stBadLen),
      (!argClear c (BitVec.allOnes 24) || rsv || xpoBad (hi 0) (lo 0) (hi 1) (lo 1) (hi 2), stBadArg)] with
  | some st => refuse c st s
  | none =>
    let s := settleXpo s.cclk s
    let put := fun (a v : Nat) => setReg a (BitVec.ofNat 32 v)
    let s := put 0x20000 (hi 0) (put 0x20004 (lo 0) (put 0x20008 (hi 1) (put 0x2000C (lo 1) (put 0x20010 (hi 2) s))))
    reply c stOk 0 [] (setEff s)

/-! ### Channel power states (11 R273-R275, Table 1.9) -/

/-- Power of the group of channel `c`. -/
def pwrOf (s : State) (c : Chn) : Pwr := (chan s (leadOf s c)).pwr

/-- Changes the power of the group of channel `c`. -/
def modPwr (c : Chn) (f : Pwr → Pwr) (s : State) : State := modChan (leadOf s c) (fun k => { k with pwr := f k.pwr }) s

/-- Encoding of a state (11 Table 11.6). -/
def pwrCode : PwrSt → Nat
  | .active => 0
  | .safelight => 1
  | .dim => 2
  | .darkroom => 3

/-- The channel is ACTIVE; during an entry it counts as in the state being entered (11 R273). -/
def isActive (s : State) (c : Chn) : Bool := (pwrOf s c).st == .active && (pwrOf s c).entering.isNone

/-- Wake time to ACTIVE in CCLK (01 Table 1.9). -/
def wakeTime (g : Grade) : PwrSt → Nat
  | .active => 0
  | .safelight => 24
  | .dim => 30 * cclkPerUs g
  | .darkroom => 400 * cclkPerUs g

/-- Entry time in CCLK (11 Table 11.5). -/
def entryTime (g : Grade) : PwrSt → Nat
  | .active => 0
  | .safelight => 1
  | .dim => 2 * cclkPerUs g
  | .darkroom => 20 * cclkPerUs g

/-- A CH_LOCK copy that names the channel runs: its unit takes no command, and its group stays awake (03 R85; 11 R274). -/
def inCopy (s : State) (l : Chn) : Bool :=
  (List.range 4).any fun i => match (chan s (chn i)).copy with
    | some x => x.cmd.p.arg.getLsbD (8 + l.val)
    | none => false

/-- What holds a group awake, slow-path searches apart: traffic, table or service work, a window, the ring (11 R274). -/
def holdsOf (s : State) (c : Chn) : Bool × Bool × Bool × Bool :=
  let l := leadOf s c
  let k := chan s l
  let traffic := s.searches.any fun q => leadOf s q.ch == l && q.mem.isNone &&
    (match q.stage with | .cell _ | .lane _ => false | _ => true)
  let work := !k.upd.queue.isEmpty || k.upd.job.isSome || k.parts.any (fun p => p.2.st == .washing) ||
    inCopy s l || (groupOf s l).any (fun m => (chan s m).repair.isSome || !(chan s m).corr.isEmpty)
  (traffic, work, k.pwr.open4 != 0, ringHolds s l)

/-- What holds a group awake: traffic, table or service work, a window, the ring (11 R274). A slow-path search counts until its result would
have been delivered (04 R112). -/
def holdBits (s : State) (c : Chn) : Bool × Bool × Bool × Bool :=
  let (tr, wk, wi, ri) := holdsOf s c
  (tr || decide ((pwrOf s c).awake > s.cclk), wk, wi, ri)

/-- XPO_STATE, when the group posts it (11 R273, Table 11.9). -/
def stateEvt (c : Chn) (old new : PwrSt) (cause : Nat) (s : State) : State :=
  let l := leadOf s c
  if regB s (chAddr l 0x6000) 30 then
    postDev 8 { type := 0x53, source := BitVec.ofNat 18 l,
                w1 := pack 64 [(pwrCode old, 63, 62), (pwrCode new, 61, 60), (cause, 59, 57)] } s
  else s

/-- Starts the wake of a group, or notes the demand met during an entry (11 R273). -/
def startWake (c : Chn) (cause : Nat) (s : State) : State :=
  let p := pwrOf s c
  if p.waking.isSome then s
  else if p.entering.isSome then modPwr c (fun p => { p with demand := p.demand.orElse fun _ => some cause }) s
  else if p.st == .active then s
  else modPwr c (fun p => { p with waking := some (p.st, s.cclk + wakeTime s.part.grade p.st, cause) }) s

/-- A wake is complete (11 R266, R273). -/
def finishWake (c : Chn) (s : State) : State :=
  match (pwrOf s c).waking with
  | none => s
  | some (old, due, cause) =>
    let s := advanceTo due s
    let l := leadOf s c
    let s := modPwr c (fun p => { p with st := .active, waking := none, since := s.cclk, idle := 0, atOnce := false }) s
    let s := { s with searches := s.searches.map fun q =>
      match q.stage with
      | .hold _ => if leadOf s q.ch == l then { q with stage := .hold s.cclk } else q
      | _ => q }
    stateEvt c old .active cause s

/-! ### Pre-exposure windows (11 R278) -/

/-- Window `w` of the group of `c` contains phase[31:16] = `ph` (11 R278). -/
def windowHas (s : State) (c : Chn) (w ph : Nat) : Bool :=
  let l := leadOf s c
  let a := regF s (chAddr l (0x6014 + w * 8)) 31 16
  let b := regF s (chAddr l (0x6014 + w * 8)) 15 0
  if a ≤ b then decide (a ≤ ph) && decide (ph < b) else decide (ph ≥ a) || decide (ph < b)

/-- The window is usable: enabled, on an enabled generator. -/
def windowOn (s : State) (c : Chn) (w : Nat) : Bool :=
  let r := getReg s (chAddr (leadOf s c) (0x6010 + w * 8))
  bitAt r 31 && cygOn s (fld r 30 27)

/-- Generator of a window. -/
def windowCyg (s : State) (c : Chn) (w : Nat) : Nat := regF s (chAddr (leadOf s c) (0x6010 + w * 8)) 30 27

/-- The window contains the present phase. -/
def windowNow (s : State) (c : Chn) (w : Nat) : Bool :=
  windowOn s c w && windowHas s c w (fld (phaseNow s (windowCyg s c w)) 31 16)

/-- A window is open while it is usable and contains the present phase (11 R278; 08 R203). -/
def settleWindows (c : Chn) (s : State) : State :=
  let o := maskOf 4 4 fun w => windowNow s c w
  if (pwrOf s c).open4 = o then s else modPwr c (fun p => { p with open4 := o }) s

/-- The idle timer of a group stops while something holds the group awake, and runs on when nothing does (11 R274). -/
def holdIdle (c : Chn) (h : Bool) (s : State) : State :=
  if h == (pwrOf s c).held then s
  else modPwr c (fun p => if h then { p with held := true, idle := p.idle + (s.cclk - p.since) }
    else { p with held := false, since := max s.cclk p.awake }) s

/-- A group that is held awake and not ACTIVE wakes, for the cause that comes first (11 R274, Table 11.6). -/
def wakeHeld (c : Chn) (x : Bool × Bool × Bool × Bool) (s : State) : State :=
  if (x.1 || x.2.1 || x.2.2.1 || x.2.2.2) && !isActive s c then
    startWake c (if x.2.2.1 then 1 else if x.2.1 then 4 else if x.2.2.2 then 5 else 2) s
  else s

/-- The windows, the idle timer and the wake of one group. -/
def settleGroup (c : Chn) (s : State) : State :=
  let s := settleWindows c s
  let x := holdsOf s c
  wakeHeld c x (holdIdle c (x.1 || x.2.1 || x.2.2.1 || x.2.2.2) s)

/-- Keeps the idle timers and wakes what R274 holds awake; done after every command. -/
def settlePower (s : State) : State :=
  if !running s then s else (List.range 4).foldl (fun s i => if isLead s (chn i) then settleGroup (chn i) s else s) s

/-- Floor work wakes a group in SAFELIGHT and waits for it (11 R274). -/
def wakeFloor (c : Chn) (s : State) : State :=
  if (pwrOf s c).st == .safelight && (pwrOf s c).entering.isNone then finishWake c (startWake c 4 s) else s

/-- CHANNEL_WAKE_COMPLETE. -/
def wakeCompleteRun (c : Chn) (s : State) : State := finishWake c s

/-- The next state down and its timer in CCLK, when `rest` allows it (11 Table 11.5). -/
def nextDown (s : State) (c : Chn) : Option (PwrSt × Nat) :=
  let l := leadOf s c
  let rest := regF s (chAddr l 0x6000) 29 28
  let us := cclkPerUs s.part.grade
  match (pwrOf s c).st with
  | .active => if rest ≥ 1 then some (.safelight, regF s (chAddr l 0x6000) 15 0) else none
  | .safelight => if rest ≥ 2 then some (.dim, us * regF s (chAddr l 0x6004) 31 16) else none
  | .dim => if rest ≥ 3 then some (.darkroom, us * regF s (chAddr l 0x6004) 15 0) else none
  | .darkroom => none

/-- IDLE_TIMER_EXPIRY: the group begins its next descent (11 R273). -/
def idleExpiryRun (c : Chn) (s : State) : State :=
  let p := pwrOf s c
  let (tr, wk, wi, ri) := holdBits s c
  if tr || wk || wi || ri || p.entering.isSome || p.waking.isSome then s
  else match nextDown s c with
    | none => s
    | some (t, n) =>
      let s := advanceTo (if p.atOnce then p.since else p.since + (n - p.idle)) s
      modPwr c (fun p => { p with entering := some (t, s.cclk + entryTime s.part.grade t, if p.atOnce then 3 else 0) }) s

/-- STATE_ENTRY_COMPLETE: the group is in the state entered; a demand met meanwhile wakes it (11 R273). -/
def entryCompleteRun (c : Chn) (s : State) : State :=
  match (pwrOf s c).entering with
  | none => s
  | some (t, due, cause) =>
    let s := advanceTo due s
    let old := (pwrOf s c).st
    let rest := regF s (chAddr (leadOf s c) 0x6000) 29 28
    let s := modPwr c (fun p => { p with st := t, entering := none, since := s.cclk, idle := 0,
                                         atOnce := p.atOnce && decide (pwrCode t < rest) }) s
    let s := stateEvt c old t cause s
    match (pwrOf s c).demand with
    | none => s
    | some d => startWake c d (modPwr c (fun p => { p with demand := none }) s)

/-- PRE_EXPOSURE_WINDOW_OPEN: the window opens when the phase reaches `start`, at once when it lies inside (08 Table 8.5). -/
def windowOpenRun (c : Chn) (w : Fin 4) (s : State) : State :=
  if (pwrOf s c).open4.getLsbD w || !windowOn s c w then s
  else
    let g := windowCyg s c w
    let a := regF s (chAddr (leadOf s c) (0x6014 + w * 8)) 31 16
    let s := if windowNow s c w then s else advanceTo (cclkOfTime (crossDue s g (BitVec.ofNat 32 (a * 2 ^ 16)) s.tb.t) s) s
    modPwr c (fun p => { p with open4 := putB p.open4 w true }) s

/-- PRE_EXPOSURE_WINDOW_CLOSE: the window closes when the phase reaches `stop`, at once when it lies outside. -/
def windowCloseRun (c : Chn) (w : Fin 4) (s : State) : State :=
  if !(pwrOf s c).open4.getLsbD w then s
  else
    let g := windowCyg s c w
    let b := regF s (chAddr (leadOf s c) (0x6014 + w * 8)) 15 0
    let s := if windowNow s c w then advanceTo (cclkOfTime (crossDue s g (BitVec.ofNat 32 (b * 2 ^ 16)) s.tb.t) s) s else s
    modPwr c (fun p => { p with open4 := putB p.open4 w false }) s

/-! ### CH_STATE and device DARKROOM (11 R276-R280) -/

/-- The channels of the groups that a mask names. -/
def namedChans (s : State) (m : Nat) : List Chn :=
  ((below 4 fun i => m.testBit i).flatMap fun i => groupOf s (chn i)).eraseDups

/-- Writes `rest` of a channel; the descent that follows is at once, and ACTIVE wakes it (11 R273, R277). Log 73 (DEDUCED). -/
def putRest (rest : Nat) (m : Chn) (s : State) : State :=
  let s := setRegF (chAddr m 0x6000) 29 28 rest s
  if !isLead s m then s
  else if rest = 0 then startWake m 3 (modPwr m (fun p => { p with atOnce := false }) s)
  else modPwr m (fun p => { p with atOnce := true }) s

/-- The current states of all channels (11 R277). -/
def stateInfo (s : State) : Nat := (List.range 4).foldl (fun n i => n + pwrCode (pwrOf s (chn i)).st * 4 ^ i) 0

/-- CH_STATE with `dev` = 0 (11 R277). Log 73 (DEDUCED). -/
def chStateRun (c : Cmd) (s : State) : State :=
  let rest := argF c 1 0
  let ms := namedChans s (argF c 11 8)
  match firstBad [(payN c != 0, stBadLen),
      (argF c 22 12 != 0 || argF c 7 2 != 0 || argF c 11 8 == 0 ||
        (decide (rest ≥ 2) && ms.any fun (m : Chn) => regB s (chAddr m 0x6000) 31), stBadArg)] with
  | some st => refuse c st s
  | none =>
    let info := stateInfo s
    reply c stOk info [] (ms.foldl (fun s m => putRest rest m s) s)

/-- CH_STATE with `dev` = 1 (11 R277, R279). -/
def chStateDevRun (c : Cmd) (s : State) : State :=
  match firstBad [(payN c != 0, stBadLen),
      (argF c 22 0 != 0 || regB s 0x4C000 31 || (List.range 4).any (fun i => regB s (chAddr i 0x6000) 31), stBadArg)] with
  | some st => refuse c st s
  | none =>
    let s := (List.range 4).foldl (fun s i => putRest 3 (chn i) s) s
    { s with dev := { s.dev with darkReq := some c }, fw := { s.fw with parked := s.fw.parked ++ [⟨c, .darkroom⟩] } }

/-- Everything that device DARKROOM waits for has come (11 R279). -/
def darkReady (s : State) : Bool :=
  (List.range 4).all (fun i => (pwrOf s (chn i)).st == .darkroom && (chan s (chn i)).pends.isEmpty &&
    (chan s (chn i)).upd.queue.isEmpty && (chan s (chn i)).upd.job.isNone) &&
    s.searches.isEmpty && s.replies.isEmpty && s.qm.held.isEmpty && s.qm.done.isEmpty && s.qm.range.isNone && s.bgWait.isEmpty &&
    s.lentWait.isEmpty && s.dev.echoes.isEmpty && s.qm.unit.queue.isEmpty && s.pool.unit.queue.isEmpty && s.pool.asks.isEmpty && s.se.queue.isEmpty &&
    s.fw.queue.isEmpty && s.fw.parked.all (fun x => x.why == .darkroom) && s.saves.isEmpty

/-- DARKROOM_ENTRY: the reply is given; the clock stops after it (11 R279). -/
def darkroomEntryRun (s : State) : State :=
  match s.dev.darkReq with
  | none => s
  | some c =>
    if !darkReady s then s
    else
      let r := { mkReply c stOk (stateInfo s) [] s.cclk with after := .stopClock }
      sendReply c r { s with dev := { s.dev with darkReq := none },
                             fw := { s.fw with parked := s.fw.parked.filter (·.cmd.id != c.id) } }

/-- Bit of a wake source in `wake_en` and `wake_src` (11 Table 11.11). -/
def wakeBit : WakeSrc → Nat
  | .clp => 0
  | .pcie => 1
  | .smbus => 2
  | .alarm => 3

/-- DARKROOM_WAKE: the first enabled wake source; ARR_RET falls, 200 us before the part serves (11 R280, 18 R428). -/
def darkroomWakeRun (w : WakeSrc) (s : State) : State :=
  let on := regB s 0x20130 (28 + wakeBit w) && (w != .alarm || regF s 0x20130 23 0 != 0)
  if s.dev.st == .darkroom && on then
    { s with dev := { s.dev with st := .waking, wakeSrc := BitVec.ofNat 4 (2 ^ wakeBit w) }, pins := { s.pins with arrRet := false } }
  else s

/-- DARKROOM_EXIT_COMPLETE: RUN, 200 us after the wake source, with the LFCLK edge that T waits for; the balance is full (08 R199; 11 R280).
Log 96 (DEDUCED). -/
def darkroomExitRun (s : State) : State :=
  if s.dev.st == .waking then
    leaveDeficit s.cclk (lfclkEdgeRun { s with dev := { s.dev with st := .run }, tb := { s.tb with wait := true },
                                               xpo := { s.xpo with bal := burstEu s, was := burstEu s, refAt := s.cclk } })
  else s

end Sys2Proof.Machine
end

