-- ==== Sys2Proof/Machine/Update.lean ====
section
/-! DEFINITION. Table updates and negatives (06 R137-R167), and the raw TCAM forms (13 R324, R325). -/

namespace Sys2Proof.Machine

/-! ### Payloads (06 R138) -/

/-- Words of a plane of width W. -/
def planeN (w : Word) : Nat := cdiv (cfgW w) 64

/-- A plane as payload words: bit W - 1 in bit 63 of the first word (06 R138). -/
def planeWords (w : Word) (x : BitVec 640) : List Word :=
  let n := planeN w
  let v := x.toNat * 2 ^ (64 * n - cfgW w)
  (List.range n).map fun i => BitVec.ofNat 64 (v >>> (64 * (n - 1 - i)))

/-- The plane that payload words carry, and whether a padding bit is set. -/
def wordsPlane (w : Word) (l : List Word) : BitVec 640 × Bool :=
  let n := planeN w
  let v := (l.take n).foldl (fun a x => a * 2 ^ 64 + x.toNat) 0
  let pad := 64 * n - cfgW w
  (BitVec.ofNat 640 (v / 2 ^ pad), v % 2 ^ pad != 0)

/-- A data plane and a mask plane break 02 R39: a reserved bit of a range slot is set. -/
def slotBad (w : Word) (d m : BitVec 640) : Bool :=
  (List.range (2 * cfgG w)).any fun h => cfgRange w h && (fld d (40 * h + 23) (40 * h + 8) != 0 || fld m (40 * h + 23) (40 * h + 8) != 0)

/-- The channel and partition that a command names. -/
def cmdCh (c : Cmd) : Chn := if c.op == 0x4C || c.op == 0x4D then chn (fld (payW c 0) 63 62) else chn (argF c 7 6)
def cmdPart (c : Cmd) : Nat := if c.op == 0x4C || c.op == 0x4D then fld (payW c 0) 61 56 else argF c 5 0

/-! ### Entries -/

/-- What an entry is to an update (06 Table 6.8). -/
inductive EntKind where
  | absent | both | staged | old
  deriving DecidableEq, Repr

/-- Control bits of the segment-0 row of an entry. -/
def entCtl (s : State) (c : Chn) (w : Word) (p e : Nat) : BitVec 4 :=
  match entryRows s (homeOf s c p (e / perBlock w)) w p e with
  | r :: _ => r.ctl
  | [] => 0

/-- Entry `e` is valid. -/
def entValid (s : State) (c : Chn) (w : Word) (p e : Nat) : Bool := bitAt (entCtl s c w p e) 3

/-- The kind of an entry; in STEADY every valid entry counts as in both (06 R152). -/
def entKind (s : State) (c : Chn) (w : Word) (p e : Nat) : EntKind :=
  let k := entCtl s c w p e
  let l := (partOf s c p).live
  let inL := bitAt k (if l then 1 else 2)
  let inS := bitAt k (if l then 2 else 1)
  if !bitAt k 3 then .absent
  else if (partOf s c p).st == .steady || (inL && inS) then .both
  else if inS then .staged else .old

/-- The planes of an entry as read: corrected where correctable (13 R320). -/
def entPlanes (s : State) (c : Chn) (w : Word) (p e : Nat) : BitVec 640 × BitVec 640 :=
  let rs := (entryRows s (homeOf s c p (e / perBlock w)) w p e).map fun r => (decodeRow r).1
  (planeOf (rs.map (·.d)), planeOf (rs.map (·.m)))

/-- Segment-0 rows of the entries of partition `p` in channel `m`: entry number and control bits, ascending. -/
def listed (s : State) (m : Chn) (w : Word) (p : Nat) : List (Nat × BitVec 4) :=
  let k := chan s m
  k.owner.flatMap fun o =>
    if o.2.1 == p then
      (k.rows.filter fun r => r.1 / 8192 == servePhys k o.1 && r.1 % cfgG w == 0).map fun r =>
        (o.2.2 * perBlock w + r.1 % 8192 / cfgG w, r.2.ctl)
    else []

/-- Valid entries with exactly one membership bit, ascending: the wash steps left (06 R159, Table 6.16). -/
def singles (s : State) (c : Chn) (p : Nat) : List (Nat × BitVec 4) :=
  let w := cfgOf s c p
  let ms := if spans s c then groupOf s c else [c]
  ((ms.flatMap fun m => listed s m w p).filter fun x => bitAt x.2 3 && bitAt x.2 2 != bitAt x.2 1).mergeSort fun a b => a.1 ≤ b.1

/-! ### The allocator (06 R144) -/

/-- The lowest free entry number of a logical block. -/
def freeIn (s : State) (c : Chn) (w : Word) (p b : Nat) : Option Nat :=
  match posOf s (homeOf s c p b) p b with
  | none => none
  | some _ =>
    let used := ((listed s (homeOf s c p b) w p).filter fun x => bitAt x.2 3).map (·.1)
    ((List.range (perBlock w)).map (b * perBlock w + ·)).find? fun e => !used.contains e

/-- A logical block holds no valid entry. -/
def blockEmpty (s : State) (c : Chn) (w : Word) (p b : Nat) : Bool :=
  !(listed s (homeOf s c p b) w p).any fun x => bitAt x.2 3 && x.1 / perBlock w == b

/-- Sheet bit of value `v` of a logical block with every pending decrement made (06 R144); 1 where its block is forced or its word poisoned
(02 R52). -/
def sheetBit (s : State) (c : Chn) (p b v : Nat) : Bool :=
  let m := homeOf s c p b
  let k := chan s m
  match posOf s m p b with
  | none => false
  | some pos =>
    let ph := servePhys k pos
    let less := (k.pendDec.filter fun d => d.2.1 == ph && d.2.2.contains v).length
    k.forced.contains ph || (sheetCnt k ph v).2 || decide ((sheetCnt k ph v).1 > less)

/-- What the allocator's reads of sheet counters report, when its first two rules yield no block (06 Table 6.6; 13 R315, R316): the third
rule reads the counters of every block of the partition; the spec does not say whether it stops at the block chosen. Log 49 (DEDUCED). Log
111 (DESIGN CHOICE). -/
def noteSheetBits (c : Chn) (p : Nat) (vs : List Nat) (s : State) : State :=
  (List.range (cfgBlocks (cfgOf s c p))).foldl (fun s b =>
    let m := homeOf s c p b
    match posOf s m p b with
    | none => s
    | some pos =>
      let ph := servePhys (chan s m) pos
      ((vs.map fun v => (ph * 256 + v) / 4).eraseDups).foldl (fun s w => noteSheet m (4 * w) s) s) s

/-- The class of the blocks that content prefers: VALUE of its one slice value, or WIDE (06 R144). -/
def classOf (w : Word) (d m : BitVec 640) : Nat := if fld m (cfgPos w + 7) (cfgPos w) == 255 then (sliceVals w d m).headD 0 else 256

/-- Logical block `b` is EMPTY (06 R144). -/
def isEmptyBlk (s : State) (c : Chn) (w : Word) (p b : Nat) : Bool := (mget (partOf s c p).cls b).isNone && blockEmpty s c w p b

/-- The lowest free entry number of the lowest block with one that `f` takes. -/
def pickEntry (s : State) (c : Chn) (p : Nat) (f : Nat → Bool) : Option Nat :=
  (List.range (cfgBlocks (cfgOf s c p))).findSome? fun b => if f b then freeIn s c (cfgOf s c p) p b else none

/-- The entry number that the rules before the third give (06 Table 6.6). -/
def allocFirst (s : State) (c : Chn) (p : Nat) (d m : BitVec 640) : Option Nat :=
  let w := cfgOf s c p
  if !cfgSlice w then pickEntry s c p fun _ => true
  else (pickEntry s c p fun b => mget (partOf s c p).cls b == some (classOf w d m)).orElse fun _ =>
    pickEntry s c p fun b => isEmptyBlk s c w p b

/-- The entry number for new content; none when the partition is full (06 Table 6.6). -/
def allocate (s : State) (c : Chn) (p : Nat) (d m : BitVec 640) : Option Nat :=
  (allocFirst s c p d m).orElse fun _ =>
  (pickEntry s c p fun b => (sliceVals (cfgOf s c p) d m).all fun v => sheetBit s c p b v).orElse fun _ =>
  pickEntry s c p fun _ => true

/-- A create step puts the content into an EMPTY block: the block takes the class of the content (06 Table 6.6). -/
def takeClass (c : Chn) (st : WStep) (s : State) : State :=
  match st with
  | .create p e d m .. =>
    let w := cfgOf s c p
    let b := e / perBlock w
    if cfgManaged w && cfgSlice w && isEmptyBlk s c w p b then modPart c p (fun x => { x with cls := mset x.cls b (classOf w d m) }) s else s
  | _ => s

/-- A block whose last valid entry has gone is EMPTY again (06 R144). -/
def dropClass (c : Chn) (p e : Nat) (s : State) : State :=
  let w := cfgOf s c p
  let b := e / perBlock w
  if blockEmpty s c w p b then modPart c p (fun x => { x with cls := mdel x.cls b }) s else s

/-! ### Checks (06 R140) -/

/-- Descriptor bits that a command uses (06 Table 6.1). -/
def usedBits (op : Byte) (w0 : Word) : Word :=
  match op.toNat with
  | 0x20 => ones 63 62 ||| ones 35 0 ||| (if bitAt w0 62 then ones 55 36 else 0)
  | 0x22 => ones 63 63 ||| ones 35 20
  | 0x24 => ones 35 0
  | 0x25 => ones 58 56 ||| ones 19 0
  | _ => ones 19 0

/-- Payload length fits width 80 x g (06 Tables 6.2, 6.3). -/
def lenFits (op : Byte) (w0 : Word) (len g : Nat) : Bool :=
  let n := cdiv (80 * g) 64
  match op.toNat with
  | 0x20 | 0x22 => len == 1 + 2 * n + (if bitAt w0 63 then g else 0)
  | 0x25 => decide (len ≥ 2) && decide (fld w0 58 56 + (len - 1) ≤ g)
  | _ => len == 1

/-- Payload length of an update command is wrong. -/
def updLenBad (c : Cmd) (w : Word) : Bool :=
  let w0 := payW c 0
  if payN c == 0 then true
  else if cfgOn w then !lenFits c.op w0 (payN c) (cfgG w)
  else
    let any := fun w0 => [1, 2, 4, 8].any fun g => lenFits c.op w0 (payN c) g
    !(any (w0 &&& ~~~(ones 63 63)) || any (w0 ||| ones 63 63))

/-- The planes that ENT_WR or ENT_INS carries, and whether a padding bit is set. -/
def cmdPlanes (c : Cmd) (w : Word) : BitVec 640 × BitVec 640 × Bool :=
  let (d, b1) := wordsPlane w (c.p.pay.drop 1)
  let (m, b2) := wordsPlane w (c.p.pay.drop (1 + planeN w))
  (d, m, b1 || b2)

/-- Table 6.5 or 06 R148 does not allow the command for its target. -/
def effectBad (s : State) (k : Chn) (w : Word) (p : Nat) (c : Cmd) : Bool :=
  let e := fld (payW c 0) 19 0
  let repl := fld (payW c 0) 55 36
  let opn := (partOf s k p).st == .opened
  let kind := entKind s k w p e
  let replBad := c.op == 0x20 && bitAt (payW c 0) 62 &&
    !(!cfgManaged w && opn && kind == .absent && decide (repl < cfgEntries w) && entKind s k w p repl == .both)
  replBad || (((partOf s k p).st == .steady || opn) &&
    (match c.op.toNat with
      | 0x20 => (kind == .both && opn && !cfgManaged w) || kind == .old
      | 0x24 | 0x25 => kind == .absent || kind == .old || (kind == .both && opn && !cfgManaged w)
      | _ => false))

/-- The command writes a copy with a new entry number (06 R149). -/
def isCopy (s : State) (k : Chn) (w : Word) (p : Nat) (c : Cmd) : Bool :=
  [0x20, 0x24, 0x25].contains c.op && cfgManaged w && (partOf s k p).st == .opened &&
    entKind s k w p (fld (payW c 0) 19 0) == .both

/-- The partition refuses changes (06 Table 6.9). -/
def partBusy (s : State) (k : Chn) (p : Nat) : Bool :=
  match (partOf s k p).st with
  | .pend | .fixing | .washing => true
  | _ => false

/-- The content a new entry gets: planes of the command, or those of the entry copied. -/
def newPlanes (s : State) (k : Chn) (w : Word) (p : Nat) (c : Cmd) : BitVec 640 × BitVec 640 :=
  if c.op == 0x20 || c.op == 0x22 then let x := cmdPlanes c w; (x.1, x.2.1) else entPlanes s k w p (fld (payW c 0) 19 0)

/-- The checks of an update command (06 R140). Log 58 (DEDUCED). -/
def updBad (s : State) (c : Cmd) : Option Byte :=
  let k := cmdCh c
  let p := cmdPart c
  let w := cfgOf s k p
  let w0 := payW c 0
  let e := fld w0 19 0
  let x := cmdPlanes c w
  let wr := c.op == 0x20 || c.op == 0x22
  let rd := c.op == 0x21 || c.op == 0x26
  firstBad [(ownerBars s k p c.p.ap, stDenied), (updLenBad c w, stBadLen),
    (argF c 23 8 != 0 || w0 &&& ~~~(usedBits c.op w0) != 0 || !isLead s k || !cfgOn w || decide (e ≥ cfgEntries w) ||
      (wr && (x.2.2 || slotBad w x.1 x.2.1)) || (c.op == 0x22 && !cfgManaged w) ||
      (c.op == 0x20 && cfgManaged w && !entValid s k w p e) || effectBad s k w p c, stBadArg),
    (!rd && partBusy s k p, stBusyFix),
    ((c.op == 0x22 || isCopy s k w p c) && (let y := newPlanes s k w p c; (allocate s k p y.1 y.2).isNone), stFull)]

/-- The checks of a raw TCAM access (13 R324). -/
def rawBad (s : State) (c : Cmd) : Option Byte :=
  let k := cmdCh c
  let p := cmdPart c
  let w := cfgOf s k p
  let w0 := payW c 0
  let rsv := !argClear c (~~~(ones 22 22)) || fld w0 32 0 != 0 ||
    (c.op == 0x4D && (fld (payW c 2) 63 20 != 0 || fld (payW c 4) 63 16 != 0 || fld (payW c 5) 63 16 != 0))
  firstBad [(payN c != (if c.op == 0x4D then 6 else 1), stBadLen), (ownerBars s k p c.p.ap, stDenied),
    (rsv || !isLead s k || !cfgOn w || decide (fld w0 55 36 ≥ cfgEntries w) || decide (fld w0 35 33 ≥ cfgG w), stBadArg),
    (c.op == 0x4D && partBusy s k p, stBusyFix)]

/-! ### Steps (06 R141, R142, R148, R149) -/

/-- Membership bits (in_a, in_b) of an entry in the live negative only, or in the staged one only. -/
def onlyLive (x : Part) : Bool × Bool := (!x.live, x.live)
def onlyStaged (x : Part) : Bool × Bool := (x.live, !x.live)

/-- The associated data a command carries, or zeros. -/
def carriedAd (c : Cmd) (w : Word) : List Word :=
  if bitAt (payW c 0) 63 then c.p.pay.drop (1 + 2 * planeN w) else List.replicate (cfgG w) 0

/-- The entry's associated data and priority as stored. -/
def storedAd (s : State) (k : Chn) (w : Word) (p e : Nat) : List Word :=
  let m := homeOf s k p (e / perBlock w)
  match posOf s m p (e / perBlock w) with
  | none => []
  | some pos => (List.range (cfgG w)).map fun i => (readWord (adWord (chan s m) (adIdx pos (rowOf w e) + i))).1
def storedPrio (s : State) (k : Chn) (w : Word) (p e : Nat) : BitVec 16 :=
  let m := homeOf s k p (e / perBlock w)
  match posOf s m p (e / perBlock w) with
  | none => 0
  | some pos => (let i := adIdx pos (rowOf w e); (readHalf (prioWord (chan s m) i) i).1)

/-- The entry's associated data and priority as a copy takes them over: corrected with fresh codes, a poisoned one as stored.
Log 100 (DEDUCED). -/
def copiedAd (s : State) (k : Chn) (w : Word) (p e : Nat) : List SWord :=
  let m := homeOf s k p (e / perBlock w)
  match posOf s m p (e / perBlock w) with
  | none => []
  | some pos => (List.range (cfgG w)).map fun i => ((adWord (chan s m) (adIdx pos (rowOf w e) + i)).map healWord).getD (encode 0)
def copiedPrio (s : State) (k : Chn) (w : Word) (p e : Nat) : SWord :=
  let m := homeOf s k p (e / perBlock w)
  match posOf s m p (e / perBlock w) with
  | none => encode 0
  | some pos =>
    let i := adIdx pos (rowOf w e)
    let x := readHalf (prioWord (chan s m) i) i
    if x.2.1 = .poisoned then rawHalf (prioWord (chan s m) i) i else encode (x.1.setWidth 64)

/-- What the read of an entry by a copy counts and reports (13 R315, R316, R318). -/
def noteCopied (k : Chn) (w : Word) (p e : Nat) (s : State) : State :=
  let m := homeOf s k p (e / perBlock w)
  match posOf s m p (e / perBlock w) with
  | none => s
  | some pos =>
    let (_, _, s) := readAds m p e (adIdx pos (rowOf w e)) (cfgG w) s
    (readPrio m p e (adIdx pos (rowOf w e)) s).2.2

/-- The job of an accepted update command. -/
def updJob (s : State) (c : Cmd) : Job :=
  let k := cmdCh c
  let p := cmdPart c
  let w := cfgOf s k p
  let w0 := payW c 0
  let e := fld w0 19 0
  let prio : BitVec 16 := BitVec.ofNat 16 (fld w0 35 20)
  let x := partOf s k p
  let opn := x.st == .opened
  let mem := if opn then onlyStaged x else (true, true)
  let kind := entKind s k w p e
  let y := newPlanes s k w p c
  let job := fun (l : List WStep) (e : Nat) => ({ cmd := c, steps := l, entry := e } : Job)
  if isCopy s k w p c then
    match allocate s k p y.1 y.2 with
    | none => job [] e
    | some f =>
      let ad := copiedAd s k w p e
      let ad' := match c.op.toNat with
        | 0x20 => if bitAt w0 63 then (carriedAd c w).map encode else ad
        | 0x25 => ad.take (fld w0 58 56) ++ (c.p.pay.drop 1).map encode ++ ad.drop (fld w0 58 56 + payN c - 1)
        | _ => ad
      let pr := if c.op == 0x25 then copiedPrio s k w p e else encode (prio.setWidth 64)
      let o := onlyLive x
      { job [.leave p e o.1 o.2, .create p f y.1 y.2 pr ad' mem.1 mem.2] f with copied := true }
  else match c.op.toNat with
    | 0x20 =>
      if kind == .absent then
        let cr := WStep.create p e y.1 y.2 (encode (prio.setWidth 64)) ((carriedAd c w).map encode) mem.1 mem.2
        if bitAt w0 62 then
          let o := onlyLive x
          job [cr, .member p (fld w0 55 36) o.1 o.2] e
        else job [cr] e
      else job [.planes p e y.1 y.2 prio (if bitAt w0 63 then some (carriedAd c w) else none)] e
    | 0x22 =>
      match allocate s k p y.1 y.2 with
      | none => job [] 0
      | some f => job [.create p f y.1 y.2 (encode (prio.setWidth 64)) ((carriedAd c w).map encode) mem.1 mem.2] f
    | 0x23 =>
      match kind with
      | .both => if opn then let o := onlyLive x; job [.member p e o.1 o.2] e else job [.kill p e] e
      | .staged => job [.kill p e] e
      | _ => { job [.look p e] e with absent := true }
    | 0x24 => job [.setPrio p e prio] e
    | 0x25 => job [.setAd p e (fld w0 58 56) (c.p.pay.drop 1)] e
    | 0x21 => job [.readEnt p e] e
    | _ => job [.readAd p e] e

/-- Partition and entry of a step. -/
def stepTarget : WStep → Nat × Nat
  | .create p e .. => (p, e)
  | .planes p e .. => (p, e)
  | .setPrio p e _ => (p, e)
  | .setAd p e _ _ => (p, e)
  | .member p e _ _ => (p, e)
  | .leave p e _ _ => (p, e)
  | .kill p e => (p, e)
  | .look p e => (p, e)
  | .readEnt p e => (p, e)
  | .readAd p e => (p, e)
  | .raw p e _ _ => (p, e)

/-- The rows of an entry in channel `m` with row `sg` replaced, as a raw write leaves them. -/
def rawRows (s : State) (m : Chn) (w : Word) (p e sg : Nat) (row : Row) : List Row :=
  (entryRows s m w p e).zipIdx.map fun x => if x.2 = sg then row else x.1

/-- The planes that a step gives its entry in channel `m`, when it leaves it valid with new planes (06 R142, 13 R325). -/
def stepPlanes (s : State) (m : Chn) (w : Word) : WStep → Option (BitVec 640 × BitVec 640)
  | .create _ _ d q _ _ _ _ => some (d, q)
  | .planes _ _ d q _ _ => some (d, q)
  | .raw p e sg row =>
    let rows := rawRows s m w p e sg row
    if (rows.head?.map rowValid).getD false then some (planeOf (rows.map (·.d)), planeOf (rows.map (·.m))) else none
  | _ => none

/-- Counters that must rise before a step (06 R142, R146). -/
def stepIncs (s : State) (c : Chn) (st : WStep) : Nat :=
  let (p, e) := stepTarget st
  let w := cfgOf s c p
  if !cfgSlice w then 0
  else match stepPlanes s (homeOf s c p (e / perBlock w)) w st with
    | some x => (sliceVals w x.1 x.2).length
    | none => 0

/-- The increments of a step start in CCLK `n`, in every member (06 R142, R146). -/
def beginIncs (c : Chn) (st : WStep) (n : Nat) (s : State) : State :=
  let (p, e) := stepTarget st
  let w := cfgOf s c p
  (groupOf s c).foldl (fun s m => startIncs w p e n (stepPlanes s m w st) m s) s

/-- Makes a write step in CCLK `n` in channel `m`. -/
def stepIn (w : Word) (n : Nat) (st : WStep) (m : Chn) (s : State) : State :=
  match st with
  | .create p e d q prio ad inA inB =>
    let s := sheetFor w p e n (some (d, q)) m s
    let s := mapRows w p e (fun i _ => some (freshRow (seg d i) (seg q i) (ctlOf true inA inB (i == 0)))) m s
    unbad p e m (storeAds w p e 0 ad m (storePrio w p e prio m s))
  | .planes p e d q prio ad =>
    let s := sheetFor w p e n (some (d, q)) m s
    let s := mapRows w p e (fun i r => some (freshRow (seg d i) (seg q i) r.ctl)) m s
    let s := putPrio w p e prio m s
    unbad p e m (match ad with | some l => putAds w p e 0 l m s | none => s)
  | .setPrio p e prio => putPrio w p e prio m s
  | .setAd p e f l => putAds w p e f l m (keepAds w p e f l.length n m s)
  | .member p e a b | .leave p e a b =>
    mapRows w p e (fun i r => if i = 0 then
      some (let x : Row := { r with ctl := ctlOf (rowValid r) a b (bitAt r.ctl 0) }; { x with cd := rowCode 84 (dataBits x) }) else none) m s
  | .kill p e =>
    let s := sheetFor w p e n none m s
    let s := mapRows w p e (fun _ r => some (let x : Row := { r with ctl := r.ctl &&& 7 }; { x with cd := rowCode 84 (dataBits x) })) m s
    unbad p e m s
  | .raw p e sg row =>
    let new := stepPlanes s m w (.raw p e sg row)
    let s := sheetFor w p e n new m s
    let s := mapRows w p e (fun i _ => if i = sg then some row else none) m s
    if new.isSome && cfgG w != 1 then s else unbad p e m s
  | _ => s

/-- A step makes a valid entry not valid, or may. -/
def mayEmpty : WStep → Bool
  | .kill _ _ => true
  | .raw .. => true
  | _ => false

/-- Makes a write step in CCLK `n` in every member, after the lookups that compare before it (06 R37, R78).
Log 58 (DEDUCED). Log 59 (DESIGN CHOICE). -/
def doStep (c : Chn) (n : Nat) (st : WStep) (s : State) : State :=
  let s := settlePipe n s
  let (p, e) := stepTarget st
  let w := cfgOf s c p
  let s := match st with | .leave p e _ _ => noteCopied c w p e s | _ => s
  let s := (groupOf s c).foldl (fun s m => stepIn w n st m s) (takeClass c st s)
  if mayEmpty st then dropClass c p e s else s

/-- A lookup compares in the target block of a step in CCLK `n` in some member (06 R146). -/
def blockCompares (s : State) (c : Chn) (p b n : Nat) : Bool :=
  (groupOf s c).any fun m =>
    match posOf s m p b with
    | none => false
    | some pos => (chan s m).cmps.contains (n, pos) || s.searches.any fun q =>
        (match q.stage with | .pipe adm => adm + 6 == n | _ => false) &&
          (q.acts.getD []).any fun a => a % 64 == pos && chn (a / 64) == m

/-- The reply of a commit, made in CCLK `n`: it carries the new stamp (06 R155, R161). -/
def replyStamp (l : Chn) (n : Nat) (c : Cmd) (s : State) : State :=
  let v := (chan s l).stamp
  sendReply c { mkReply c stOk v.toNat [] n with stamp := some (l, v) } s

/-- A reply made in CCLK `n`, when that differs from the present one. -/
def replyIn (n : Nat) (c : Cmd) (st : Byte) (info : Nat) (pay : List Word) (s : State) : State :=
  sendReply c (mkReply c st info pay n) s

/-! ### Reads (13 R315, R320, R323) -/

/-- A row of entry `e` read with an uncorrectable plane: logged, and for a valid entry counted and posted, the entry entering the
bad-entry table when there is room (13 R323). -/
def tcamBad (m : Chn) (p e k : Nat) (blk : Nat) (dBad mBad valid : Bool) (s : State) : State :=
  let det := b2n dBad + 2 * b2n mBad
  let id := Config.blockId m blk
  let loc := entLoc m p e k
  let s := logRec 2 (if dBad then 11 else 12) det id loc s
  if !valid then s
  else
    let s := if dBad then bump 0x801B8 s else s
    let s := if mBad then bump 0x801C8 s else s
    let t := (chan s m).bad
    let full := !t.contains (p, e) && decide (t.length ≥ 16)
    let s := if t.contains (p, e) || full then s else modChan m (fun x => { x with bad := x.bad ++ [(p, e)] }) s
    postDev 9 { type := 0x41, source := BitVec.ofNat 18 m,
                w1 := pack 64 [(loc, 63, 32), (b2n mBad, 31, 31), (b2n dBad, 30, 30), (b2n full, 29, 29)] } s

/-- Correctable planes of a row read are counted in memories 11 and 12 (13 R315, R320). -/
def countRow (hd hm : Health) (s : State) : State :=
  let s := if hd = .correctable then metCorr 11 s else s
  if hm = .correctable then metCorr 12 s else s

/-- What the read of a row by the scrubber or ENT_RD reports: correctable planes counted, uncorrectable ones as 13 R323. -/
def noteRow (m : Chn) (p e k blk : Nat) (valid : Bool) (hd hm : Health) (s : State) : State :=
  let s := countRow hd hm s
  if hd = .poisoned || hm = .poisoned then tcamBad m p e k blk (hd = .poisoned) (hm = .poisoned) valid s else s

/-- ENT_RD reads an entry: status and reply words (06 R138, 13 R320). -/
def entRead (c : Chn) (p e : Nat) (s : State) : Byte × List Word × State :=
  let w := cfgOf s c p
  let m := homeOf s c p (e / perBlock w)
  let rs := entryRows s m w p e
  let ds := rs.map decodeRow
  let ctl := match ds with | d :: _ => d.1.ctl | [] => 0
  let pos := (posOf s m p (e / perBlock w)).getD 0
  let blk := servePhys (chan s m) pos
  let s := (ds.zipIdx).foldl (fun s x => noteRow m p e x.2 blk (bitAt ctl 3) x.1.2.1 x.1.2.2 s) s
  let rBad := ds.any fun d => d.2.1 == .poisoned || d.2.2 == .poisoned
  if !bitAt ctl 3 then (if rBad then stPoison else stOk, pack 64 [(e, 19, 0)] :: List.replicate (2 * planeN w) 0, s)
  else
    let (pr, pBad, s) := readPrio m p e (adIdx pos (rowOf w e)) s
    let bad := pBad || rBad
    let desc : Word := pack 64 [(1, 61, 61), (fld ctl 2 2, 60, 60), (fld ctl 1 1, 59, 59), (pr.toNat, 35, 20), (e, 19, 0)]
    let x := planeOf (ds.map (·.1.d))
    let y := planeOf (ds.map (·.1.m))
    (if bad then stPoison else stOk, desc :: (planeWords w x ++ planeWords w y), s)

/-- AD_RD reads an entry's associated data. -/
def adRead (c : Chn) (p e : Nat) (s : State) : Byte × List Word × State :=
  let w := cfgOf s c p
  let m := homeOf s c p (e / perBlock w)
  if !entValid s c w p e then (stOk, List.replicate (cfgG w) 0, s)
  else
    let pos := (posOf s m p (e / perBlock w)).getD 0
    let (vs, bs, s) := readAds m p e (adIdx pos (rowOf w e)) (cfgG w) s
    (if bs.any id then stPoison else stOk, vs, s)

/-! ### Negatives (06 R152-R163) -/

/-- Issued stamps: records exist for the values issued since the sequence began, the current one included. -/
def stampRec (s : State) (c : Chn) (v : Byte) : Option StampRec := mget (chan s c).stamps v.toNat

/-- The guard of 06 R161 in CCLK: 1,024 us. -/
def stampGuard (g : Grade) : Nat := 1024 * cclkPerUs g

/-- The value that a commit would make current was last in use too recently (06 R161). -/
def stampBusy (s : State) (c : Chn) (n : Nat) : Bool :=
  match stampRec s c ((chan s c).stamp + 1) with
  | none => false
  | some r => decide (n < max r.stop r.used + stampGuard s.part.grade)

/-- Makes the next stamp current in CCLK `n` (06 R160). -/
def nextStamp (c : Chn) (n : Nat) (s : State) : State :=
  modChan c (fun k =>
    let old := mgetD k.stamps k.stamp.toNat ⟨0, 0⟩
    { k with stamp := k.stamp + 1
             stamps := mset (mset k.stamps k.stamp.toNat { old with stop := n }) (k.stamp + 1).toNat ⟨0, 0⟩ }) s

/-- Fix time of partition `p` in CCLK (06 R158). -/
def fixTime (s : State) (c : Chn) (p : Nat) : Nat := min (cfgFix (cfgOf s c p)) (regF s 0x40 9 0) * cclkPerUs s.part.grade

/-- The commit of the partitions of a mask in CCLK `n` (06 R155, R158). -/
def commitMask (c : Chn) (mask : Word) (n : Nat) (s : State) : State :=
  let s := nextStamp c n (settlePipe n s)
  (bitsOf mask).foldl (fun s p =>
    modPart c p (fun x => { x with live := !x.live, st := .fixing, prev := x.last, last := some n, fixEnd := n + fixTime s c p }) s) s

/-- A wash with nothing left to do ends: STEADY, and the reply of the NEG_ABORT that waits for it (06 R159). -/
def endWash (c : Chn) (p n : Nat) (s : State) : State :=
  let x := partOf s c p
  if x.st == .washing && (singles s c p).isEmpty then
    let s := modPart c p (fun x => { x with st := .steady, abort := false, cmd := none }) s
    match x.cmd with
    | some cmd => replyIn n cmd stOk 0 [] s
    | none => s
  else s

/-- The checks of a negative command (06 R157). -/
def negBad (s : State) (n : Nat) (c : Cmd) : Option Byte :=
  let k := cmdCh c
  let commit := c.op == 0x29
  let ph := argF c 8 8 == 1
  let mask := payW c 0
  let ps := if commit then bitsOf mask else [argF c 5 0]
  let st := fun p => (partOf s k p).st
  let rsv := if commit then argF c 23 13 != 0 || argF c 5 0 != 0 || (!ph && argF c 12 9 != 0) || (ph && fld (payW c 1) 63 32 != 0)
    else argF c 23 8 != 0
  let stBad := fun p => match c.op.toNat with
    | 0x28 => st p == .opened || st p == .pend
    | 0x29 => st p != .opened
    | _ => !(st p == .opened || st p == .pend)
  let busy := fun p => match c.op.toNat with
    | 0x28 => st p == .fixing || st p == .washing
    | 0x29 => false
    | _ => st p == .pend
  firstBad [(ps.any fun p => ownerBars s k p c.p.ap, stDenied),
    (payN c != (if commit then (if ph then 2 else 1) else 0), stBadLen),
    (rsv || !isLead s k || ps.any (fun p => !cfgOn (cfgOf s k p)) || (commit && mask == 0) ||
      (commit && ph && !cygOn s (argF c 12 9)) || ps.any stBad, stBadArg),
    (ps.any busy || (commit && stampBusy s k n) || (commit && ph && s.tb.setPend.isSome), stBusyFix)]

/-- A negative command taken in CCLK `n` (06 R155, R156, R159). -/
def negDo (n : Nat) (c : Cmd) (s : State) : State :=
  let k := cmdCh c
  let p := argF c 5 0
  match c.op.toNat with
  | 0x28 => replyIn n c stOk 0 [] (modPart k p (fun x => { x with st := .opened }) s)
  | 0x29 =>
    if argF c 8 8 = 0 then
      let s := commitMask k (payW c 0) n s
      replyStamp k (n + 2) c s
    else
      let g := argF c 12 9
      let tg : Reg := BitVec.ofNat 32 (fld (payW c 1) 31 0)
      let s := (bitsOf (payW c 0)).foldl (fun s p => modPart k p (fun x => { x with st := .pend }) s) s
      modChan k (fun x => { x with pends := x.pends ++ [⟨payW c 0, g, tg, crossDue s g tg (timeAt n s), c⟩] }) s
  | _ => endWash k p n (modPart k p (fun x => { x with st := .washing, abort := true, cmd := some c }) s)

/-- PHASE_COMMIT: the first pending commit of the group reaches its target phase (06 R156). Log 60 (DEDUCED). -/
def phaseCommitRun (c : Chn) (s : State) : State :=
  let l := leadOf s c
  match (chan s l).pends.mergeSort (fun a b => a.tDue ≤ b.tDue) with
  | [] => s
  | d :: t =>
    let s := advanceTo (cclkOfTime d.tDue s) s
    let s := commitMask l d.mask s.cclk (modChan l (fun k => { k with pends := t }) s)
    replyStamp l (s.cclk + 2) d.cmd s

/-- The timed commits of a group whose crossing has come are made in the present CCLK (06 R156). -/
def commitDue (l : Chn) : Nat → State → State
  | 0, s => s
  | k + 1, s => if (chan s l).pends.any fun d => decide (d.tDue ≤ s.tb.t) then commitDue l k (phaseCommitRun l s) else s

/-- FIX_TIME_END: the commit wash of a partition begins (06 R158, R159). -/
def fixTimeEndRun (c : Chn) (p : Fin 64) (s : State) : State :=
  let l := leadOf s c
  let x := partOf s l p
  if x.st == .fixing then
    let s := advanceTo x.fixEnd s
    let s := modChan l (fun k => { k with upd := { k.upd with nextAt := max k.upd.nextAt (x.fixEnd + 1) } }) s
    endWash l p s.cclk (modPart l p (fun x => { x with st := .washing }) s)
  else s

/-! ### The update unit (06 R146-R150) -/

/-- Changes the update unit of a group. -/
def modUpd (c : Chn) (f : Upd → Upd) (s : State) : State := modChan c (fun k => { k with upd := f k.upd }) s

/-- A command joins the queue of the update unit of its channel's group, which holds 256 (15 R373). -/
def enqueueUpd (c : Cmd) (s : State) : State :=
  let l := leadOf s (cmdCh c)
  let u := (chan s l).upd
  let (a, q, x) := joinQueue 256 c u.arb u.queue
  let s := modUpd l (fun u => { u with queue := q, arb := a }) s
  match x with
  | some x => refuse x stFull s
  | none => s

/-- A partition of the group is being washed: its steps go ahead of the next command (06 R159). -/
def washing (s : State) (l : Chn) : Bool := (chan s l).parts.any fun p => p.2.st == .washing

/-- The unit starts a job in CCLK `n`: the increments of its first step run, and the step may be made after them (06 R142, R146). -/
def startJob (l : Chn) (n : Nat) (j : Job) (s : State) : State :=
  let st := j.steps.headD (.look 0 0)
  beginIncs l st n (modUpd l (fun u => { u with job := some j, nextAt := max u.nextAt (n + max 1 (cdiv (stepIncs s l st) 32)) }) s)

/-- The sheet reads that a command's allocation made, where it went as far as the third rule (06 Table 6.6). -/
def noteAlloc (l : Chn) (c : Cmd) (s : State) : State :=
  let p := cmdPart c
  let w := cfgOf s l p
  if !cfgSlice w || !(c.op == 0x22 || isCopy s l w p c) then s
  else
    let y := newPlanes s l w p c
    if (allocFirst s l p y.1 y.2).isNone && (allocate s l p y.1 y.2).isSome then noteSheetBits l p (sliceVals w y.1 y.2) s else s

/-- The unit takes a command in CCLK `n`: its checks, and its effect or its steps (06 R146). Log 57 (DEDUCED). -/
def takeCmd (l : Chn) (n : Nat) (c : Cmd) (s : State) : State :=
  if c.op.toNat ≥ 0x28 && c.op.toNat ≤ 0x2A then
    match negBad s n c with
    | some st => replyIn n c st 0 [] s
    | none => negDo n c s
  else if c.op == 0x4D then
    match rawBad s c with
    | some st => replyIn n c st 0 [] s
    | none =>
      let w := fun i => payW c i
      let row : Row := ⟨BitVec.ofNat 80 (fld (w 1) 63 0 + fld (w 2) 15 0 * 2 ^ 64), BitVec.ofNat 80 (fld (w 3) 63 0 + fld (w 4) 15 0 * 2 ^ 64),
        BitVec.ofNat 4 (fld (w 2) 19 16), BitVec.ofNat 8 (fld (w 5) 15 8), BitVec.ofNat 8 (fld (w 5) 7 0)⟩
      startJob l n { cmd := c, steps := [.raw (cmdPart c) (fld (w 0) 55 36) (fld (w 0) 35 33) row], entry := 0 } s
  else match updBad s c with
    | some st => replyIn n c st 0 [] s
    | none =>
      startJob l n (updJob s c) (noteAlloc l c s)

/-- Takes commands while the unit is free: each in the CCLK after the one before, a work queue's in the CCLK of its release.
Log 57 (DEDUCED). -/
def pumpUnit (l : Chn) : Nat → State → State
  | 0, s => s
  | fuel + 1, s =>
    let u := (chan s l).upd
    match u.queue with
    | [] => s
    | c :: t =>
      let n := max u.takeAt (if c.wq.isSome then c.chk else c.chk + 1)
      if u.job.isSome || n > s.cclk || washing s l || inCopy s l || (chan s l).resetting.isSome then s
      else pumpUnit l fuel (takeCmd l n c (modUpd l (fun u => { u with queue := t, takeAt := n + 1 }) s))

/-- Every update unit takes what it may. -/
def pumpAll (s : State) : State :=
  if !running s then s
  else (List.range 4).foldl (fun s i => if isLead s (chn i) then pumpUnit (chn i) 257 s else s) s

/-- The last step of a job was made in CCLK `n`: the reply, 2 CCLK later (06 R139, R150). -/
def endJob (l : Chn) (n : Nat) (j : Job) (st : Byte) (pay : List Word) (s : State) : State :=
  let s := modUpd l (fun u => { u with job := none, takeAt := n + 1 }) s
  if j.cmd.op == 0x4D then replyIn (n + 2) j.cmd st 0 [] s
  else replyIn (n + 2) j.cmd st (j.entry + b2n j.copied * 2 ^ 20 + b2n j.absent * 2 ^ 21) pay s

/-- Makes the next step of the unit's job in CCLK `n`. -/
def runStep (l : Chn) (n : Nat) (j : Job) (s : State) : State :=
  match j.steps with
  | [] => endJob l n j stOk [] s
  | st :: rest =>
    let s := modUpd l (fun u => { u with nextAt := n + 2, job := some { j with steps := rest } }) s
    match st with
    | .readEnt p e =>
      let (x, pay, s) := entRead l p e (settlePipe n s)
      endJob l n j x pay s
    | .readAd p e =>
      let (x, pay, s) := adRead l p e (settlePipe n s)
      endJob l n j x pay s
    | .look _ _ => endJob l n j stOk [] s
    | st =>
      let s := addStat (chAddr l 0x5108) 1 (doStep l n st s)
      match rest with
      | [] => endJob l n j stOk [] s
      | nx :: _ =>
        beginIncs l nx n (modUpd l (fun u => { u with nextAt := max (n + 2) (n + cdiv (stepIncs s l nx) 32) }) s)

/-- The target block of a step is free of compares in CCLK `n`. -/
def stepFree (s : State) (l : Chn) (st : WStep) (n : Nat) : Bool :=
  let (p, e) := stepTarget st
  !blockCompares s l p (e / perBlock (cfgOf s l p)) n

/-- The rows under correction of a group, in order of channel and of their scrub reads (13 R322). -/
def corrNext (s : State) (l : Chn) : Option (Chn × Corr) :=
  (groupOf s l).findSome? fun m => ((chan s m).corr.head?).map (m, ·)

/-- The block position that physical block `b` serves. -/
def posServed (k : Chan) (b : Nat) : Option Nat := (List.range 64).find? fun p => servePhys k p == b

/-- The slice values that the rows of an entry count in a contact sheet: none where it is not valid (02 R49). -/
def rowVals (w : Word) (l : List Row) : List Nat :=
  if (l.head?.map rowValid).getD false then sliceVals w (planeOf (l.map (·.d))) (planeOf (l.map (·.m))) else []

/-- The rows of the entry of partition word `w` that row `r` of block `b` belongs to. -/
def entryAround (k : Chan) (w : Word) (b r : Nat) : List Row :=
  (List.range (cfgG w)).map fun i => rowAt k b (r / cfgG w * cfgG w + i)

/-- The sheet counters of block `b` that serves position `pos` follow a row that becomes `r` in CCLK `n`: a correction may change the
slice or the validity of its entry (02 R49, R51). -/
def sheetRow (m : Chn) (n b pos row : Nat) (r : Row) (s : State) : State :=
  match mget (chan s m).owner pos with
  | none => s
  | some (p, _) =>
    let w := cfgOf s m p
    if !cfgSlice w then s
    else
      let old := entryAround (chan s m) w b row
      let was := rowVals w old
      let now := rowVals w (old.zipIdx.map fun y => if row / cfgG w * cfgG w + y.2 = row then r else y.1)
      if was == now then s
      else reachAll p pos now m (modChan m (laterDecs n b was) (changeSheet true m b now s))

/-- The sheet counters of block `b` of channel `m`, brought along from block `a` of channel `l`, follow the entries that the copy has
corrected: those whose slice bits or valid bit differ (02 R49, R51; 13 R320). -/
def followCopy (l : Chn) (pos : Nat) (m : Chn) (a b : Nat) (s : State) : State :=
  match mget (chan s m).owner pos with
  | none => s
  | some (p, _) =>
    let w := cfgOf s m p
    if !cfgSlice w then s
    else
      let was := fun r => rowVals w (entryAround (chan s l) w a r)
      let now := fun r => rowVals w (entryAround (chan s m) w b r)
      let rs := (chan s m).rows.filterMap fun x =>
        if x.1 / 8192 == b && rowAt (chan s l) a (x.1 % 8192) != x.2 then some (x.1 % 8192 / cfgG w * cfgG w) else none
      rs.eraseDups.foldl (fun s r =>
        if was r == now r then s else changeSheet false m b (was r) (changeSheet true m b (now r) s)) s

/-- Makes a corrective write in CCLK `n`: the corrected row with fresh codes, in its block and in the copy under way (13 R320, R322,
R331). -/
def runCorr (l m : Chn) (n : Nat) (x : Corr) (s : State) : State :=
  let s := settlePipe n s
  let k := chan s m
  let r := (decodeRow (rowAt k x.blk x.row)).1
  let ws := x.blk :: (match posServed k x.blk with | some p => writePhys k p | none => [])
  let s := match posServed k x.blk with
    | some pos => ws.eraseDups.foldl (fun s b => sheetRow m n b pos x.row r s) s
    | none => s
  let s := modChan m (fun k => ws.foldl (fun k b => putRow b x.row r k) k) s
  modUpd l (fun u => { u with nextAt := n + 2 }) (addStat (chAddr l 0x5108) 1 s)

/-- The block of a corrective write is free of compares in CCLK `n`. -/
def corrFree (s : State) (m : Chn) (x : Corr) (n : Nat) : Bool :=
  match posServed (chan s m) x.blk with
  | none => true
  | some pos => !((chan s m).cmps.contains (n, pos) || s.searches.any fun q =>
      (match q.stage with | .pipe adm => adm + 6 == n | _ => false) && (q.acts.getD []).any fun a => a % 64 == pos && chn (a / 64) == m)

/-- SCRUB_CORRECTIVE_WRITE: the corrective write, ahead of every queued step of the group (13 R322). -/
def corrWriteRun (c : Chn) (s : State) : State :=
  let l := leadOf s c
  match corrNext s l with
  | none => s
  | some (m, x) =>
    if !isActive s l then s
    else
      let s := advanceTo (chan s l).upd.nextAt s
      let s := settlePipe s.cclk s
      if corrFree s m x s.cclk then runCorr l m s.cclk x s else s

/-- WRITE_STEP: the update unit makes the next step of its job in the first CCLK it may, when the target block compares for no lookup
in it (06 R146, R151). -/
def writeStepRun (c : Chn) (s : State) : State :=
  let l := leadOf s c
  let u := (chan s l).upd
  let s := match u.job, u.queue with
    | none, y :: _ => if washing s l || inCopy s l || (chan s l).resetting.isSome then s
        else pumpUnit l 1 (advanceTo (max u.takeAt (if y.wq.isSome then y.chk else y.chk + 1)) s)
    | _, _ => s
  match (chan s l).upd.job with
  | none => s
  | some j =>
    if !isActive s l || (corrNext s l).isSome then s
    else
      let s := advanceTo (chan s l).upd.nextAt s
      let s := settlePipe s.cclk s
      match j.steps with
      | st :: _ => if stepFree s l st s.cclk then runStep l s.cclk j s else s
      | [] => runStep l s.cclk j s

/-- The step a group waits to make: the next of its job, or the next wash step (06 R159). -/
def washNext (s : State) (l : Chn) : Option (Nat × WStep) :=
  ((chan s l).parts.filter fun p => p.2.st == .washing).findSome? fun p =>
    match singles s l p.1 with
    | [] => none
    | (e, k) :: _ =>
      let inL := bitAt k (if p.2.live then 1 else 2)
      some (p.1, if inL then .member p.1 e true true else .kill p.1 e)

/-- Makes a wash step in CCLK `n` (06 R159). Log 59 (DESIGN CHOICE). -/
def runWash (l : Chn) (n p : Nat) (st : WStep) (s : State) : State :=
  let s := modUpd l (fun u => { u with nextAt := n + 2, takeAt := max u.takeAt (n + 1) }) s
  endWash l p n (addStat (chAddr l 0x5108) 1 (doStep l n st s))

/-- WASH_STEP: one single-membership entry of the lowest washing partition is resolved (06 R159). -/
def washStepRun (c : Chn) (s : State) : State :=
  let l := leadOf s c
  match washNext s l with
  | none => s
  | some (p, st) =>
    if !((pwrOf s l).st == .active || (pwrOf s l).st == .safelight) || (pwrOf s l).entering.isSome || (chan s l).upd.job.isSome || (corrNext s l).isSome then s
    else
      let s := advanceTo (chan s l).upd.nextAt s
      let s := settlePipe s.cclk s
      if stepFree s l st s.cclk then runWash l s.cclk p st s else s

/-- Channels whose admission slot a group's bubble takes. -/
def takeSlot (l : Chn) (n : Nat) (s : State) : State :=
  (groupOf s l).foldl (fun s m => modChan m (fun k => { k with lastAdm := some n, bubbleAt := some n }) s) s

/-- Counts in the 1,024-CCLK window (11 R271, R282). -/
def winOf (s : State) (c : Chn) : Window :=
  let w := (chan s c).win
  if w.no = s.cclk / 1024 then w else { no := s.cclk / 1024 }
def modWin (c : Chn) (f : Window → Window) (s : State) : State := let w := winOf s c; modChan c (fun k => { k with win := f w }) s

/-- The admission slot of this CCLK is free for a bubble in every channel of the group: no G search is held, none has been admitted in it,
no bubble in the 63 CCLK before, and above the floor no A or B search is held and the balance holds (01 R20, R21; 03 R78; 11 R282). Log 21
(DEDUCED). -/
def bubbleSlot (s : State) (l : Chn) : Bool :=
  let mine := fun (q : Srch) => leadOf s q.ch == l
  let gHeld := s.searches.any fun q => mine q && (match q.stage with | .gHeld => true | _ => false)
  let abHeld := s.searches.any fun q => mine q && (match q.stage with | .hold _ => true | _ => false)
  let open_ := (groupOf s l).all fun m => (chan s m).lastAdm != some s.cclk &&
    (match (chan s m).bubbleAt with | some n => decide (n + 64 ≤ s.cclk) | none => true)
  let floor := decide ((winOf s l).bubble < regF s 0x20028 4 0)
  let slack := !abHeld && decide (startBal s ≥ (regF s 0x2000C 23 0 : Int)) && s.dev.level != 2
  !gHeld && open_ && (floor || slack)

/-- A CCLK from `from_` up to now was free for the step that the group waits to make. -/
def hadFree (l : Chn) (from_ : Nat) (s : State) : Bool :=
  (List.range (s.cclk + 1 - from_)).any fun i =>
    match corrNext s l, (chan s l).upd.job, washNext s l with
    | some (m, x), _, _ => corrFree s m x (from_ + i)
    | none, some j, _ => match j.steps with | st :: _ => stepFree s l st (from_ + i) | [] => true
    | none, none, some (_, st) => stepFree s l st (from_ + i)
    | none, none, none => true

/-- WRITE_BUBBLE: a step that has waited `bubble_after` CCLK without a free compare cycle gets an admission slot and writes in its compare
cycle, 6 CCLK later (06 R147). Log 21 (DEDUCED). -/
def writeBubbleRun (c : Chn) (s : State) : State :=
  let l := leadOf s c
  let after := regF s (chAddr l 0x5100) 5 0
  let s := settlePipe s.cclk (settleXpo (s.cclk - 1) s)
  let wait := decide (s.cclk ≥ (chan s l).upd.nextAt + after) && isActive s l && bubbleSlot s l && !hadFree l (max (chan s l).upd.nextAt (s.cclk - 72)) s
  let place := fun (s : State) =>
    modWin l (fun w => { w with bubble := w.bubble + 1 }) (addStat (chAddr l 0x5110) 1 (takeSlot l s.cclk (settlePipe (s.cclk + 5) s)))
  if !wait then s
  else match corrNext s l, (chan s l).upd.job, washNext s l with
    | some (m, x), _, _ => runCorr l m (s.cclk + 6) x (place s)
    | none, some j, _ => runStep l (s.cclk + 6) j (place s)
    | none, none, some (p, st) => runWash l (s.cclk + 6) p st (place s)
    | none, none, none => s

/-! ### MEM_RAW_RD of TCAM rows (13 R324) -/

/-- MEM_RAW_RD with `tcam` = 1. -/
def rawRdTcam (c : Cmd) (s : State) : State :=
  match rawBad s c with
  | some st => refuse c st s
  | none =>
    let k := cmdCh c
    let p := cmdPart c
    let w := cfgOf s k p
    let e := fld (payW c 0) 55 36
    let r := (entryRows s (homeOf s k p (e / perBlock w)) w p e).getD (fld (payW c 0) 35 33) emptyRow
    reply c stOk 0 [BitVec.ofNat 64 r.d.toNat, pack 64 [(r.ctl.toNat, 19, 16), (r.d.toNat / 2 ^ 64, 15, 0)],
      BitVec.ofNat 64 r.m.toNat, pack 64 [(r.m.toNat / 2 ^ 64, 15, 0)], pack 64 [(r.cd.toNat, 15, 8), (r.cm.toNat, 7, 0)]] s

end Sys2Proof.Machine
end

