-- ==== Sys2Proof/Machine/Stream.lean ====
section
/-! DEFINITION. Stream records, gate lists, the lanes, the watchdog sweep and the background pass (09 R208-R231). -/

namespace Sys2Proof.Machine

/-! ### Records (09 R211, R215) -/

/-- SRAM word `i` of the record of handle `h`. -/
def recWord (h i : Nat) : Nat := streamBase + h * 8 + i

/-- Word `i` of a record. -/
def rw (r : List Word) (i : Nat) : Word := nth r i 0

/-- A record with a field of word `i` changed. -/
def recF (i hi lo v : Nat) (r : List Word) : List Word := r.set i (putF (rw r i) v hi lo)

/-- Reads words `i` to 7 of a record: the words, the indexes of the poisoned ones, and the state. -/
def readFrom (h i : Nat) (s : State) : List Word × List Nat × State := readMems (recWord h 0) (8 - i) i s

/-- Reads a whole record: its words, the mask of its poisoned words, and the state. -/
def readRec (h : Nat) (s : State) : List Word × Byte × State :=
  let (vs, ps, s) := readFrom h 0 s
  (vs, maskOf 8 8 fun i => ps.contains i, s)

/-- Reads a record as far as it counts: W0, and the other words when W0 is poisoned or valid (09 R215); words not read are zero. -/
def readLive (h : Nat) (s : State) : List Word × Byte × State :=
  let (w0, bad, s) := readMem (recWord h 0) s
  if bad || bitAt w0 63 then
    let (vs, ps, s) := readFrom h 1 s
    (w0 :: vs, maskOf 8 8 fun i => if i = 0 then bad else ps.contains i, s)
  else (w0 :: List.replicate 7 0, 0, s)

/-- Writes a whole record. -/
def writeRec (h : Nat) (r : List Word) (s : State) : State := writeMems (recWord h 0) r s

/-- Event queue of a handle (09 R231). -/
def seQ (s : State) (h : Nat) : BitVec 18 := BitVec.ofNat 18 (regF s 0x60004 17 0 + h >>> regF s 0x60004 22 18)

/-- Who accesses a record: a lane, the sweep, the background pass or a command. -/
inductive Visitor where
  | lane (l : Chn) | sweep | background | command
  deriving DecidableEq, Repr

/-- The visitor's place among producers, and its lane number there (10 R245). -/
def Visitor.rank : Visitor → Nat × Nat
  | .lane l => (1, l)
  | .sweep => (2, 0)
  | _ => (3, 0)

/-- The lane that counts a quarantine (09 R215). -/
def Visitor.lane_ : Visitor → Nat
  | .lane l => l
  | _ => 0

/-- Posts a stream event staged in CCLK `n`. -/
def seEvt (n : Nat) (v : Visitor) (h : Nat) (e : Event) (s : State) : State :=
  postAt n v.rank.1 v.rank.2 (seQ s h) { e with source := BitVec.ofNat 18 h } s

/-- Quarantines a record found poisoned (09 R215). -/
def quarantine (n : Nat) (v : Visitor) (h : Nat) (mask : Byte) (s : State) : State :=
  let s := writeMem (recWord h 0) 0xff 1 s
  let s := bump (0x60110 + v.lane_ * 0x20) s
  seEvt n v h { type := 0x05, source := 0,
                w1 := pack 64 [(mask.toNat, 63, 56), (v.lane_, 55, 54), (b2n (v == .sweep || v == .background), 53, 53)] } s

/-- An access to a record: none when it finds poison, which quarantines the record, finds the record quarantined, or finds `valid` = 0;
the flags tell the first two (09 R215). -/
def accessRec (n : Nat) (v : Visitor) (h : Nat) (s : State) : Option (List Word) × Bool × Bool × State :=
  let (w0, bad, s1) := readMem (recWord h 0) s
  if !bad && bitAt w0 0 then (none, false, true, s1)
  else
    let (r, mask, s) := readLive h s
    if mask != 0 then (none, true, false, quarantine n v h mask s)
    else if bitAt (rw r 0) 63 then (some r, false, false, s)
    else (none, false, false, s)

/-- A 32-bit record counter after `k` more, and the crossings it made: 0 past 2^31, 1 wrapped (00 R11). -/
def countUp (c k : Nat) : Nat × List Nat :=
  let t := c + k
  (t % 2 ^ 32, (if c < 2 ^ 31 && t ≥ 2 ^ 31 then [0] else []) ++ (if t ≥ 2 ^ 32 then [1] else []))

/-- Counts `k` in counter `i` of a record (0 pass, 1 drop, 2 dup, 3 miss) with its events. -/
def recCount (n : Nat) (v : Visitor) (h i k : Nat) (r : List Word) (s : State) : List Word × State :=
  let w := 6 + i / 2
  let (hi, lo) := if i % 2 = 0 then (63, 32) else (31, 0)
  let (c, xs) := countUp (fld (rw r w) hi lo) k
  let r := recF w hi lo c r
  (r, xs.foldl (fun s x => seEvt n v h { type := 0x01, source := 0, w1 := pack 64 [(i, 63, 62), (x, 61, 61)], w2 := rw r 6,
                                         w3 := rw r 7 } s) s)

/-! ### Gate lists (09 R220, R221) -/

/-- Header register of list `l`. -/
def gclReg (l : Nat) : Nat := 0x64000 + l * 4

/-- SRAM word of entry `i` of list `l`. -/
def gclWord (l i : Nat) : Nat := gateBase + l * 64 + i

/-- End phase of an entry, corrected. -/
def endPhase (s : State) (l i : Nat) : Nat := match rawWord s (gclWord l i) with | some x => fld (decodeWord x).1 63 32 | none => 0

/-- The entry in force of list `l` at phase `ph` (09 R221). -/
def gclIndex (s : State) (l ph : Nat) : Nat :=
  let n := regF s (gclReg l) 5 0
  ((List.range n).find? fun i => decide (ph < endPhase s l i)).getD n

/-- The state of list `l` at time `t` as an entry, closed when the list is disabled or the entry poisoned. Log 66 (DEDUCED). -/
def gclState (l t : Nat) (s : State) : Word × State :=
  if !regB s (gclReg l) 31 then (0, s)
  else
    let ph := (phaseAt s (regF s (gclReg l) 30 27) t).toNat
    let (v, bad, s) := readMem (gclWord l (gclIndex s l ph)) s
    (if bad then 0 else v, s)

/-- The entries of list `l` strictly ascend in `end_phase` below `n`, where entries `first` on read as given (09 R220). -/
def gclRising (s : State) (l n first : Nat) (ws : List Word) : Bool :=
  let e := fun i => if first ≤ i && decide (i < first + ws.length) then fld (nth ws (i - first) 0) 63 32 else endPhase s l i
  (List.range (n - 1)).all fun i => decide (i + 1 ≥ n) || decide (e i < e (i + 1))

/-- What list `l` holds for a lane at time `t`. -/
def gateNow (s : State) (l t : Nat) : GateKept :=
  let w := gclWord l (gclIndex s l (phaseAt s (regF s (gclReg l) 30 27) t).toNat)
  ⟨l, regB s (gclReg l) 31, w, rawWord s w, s.vbad.contains w⟩

/-- The state of list `l` at time `t` for a search that kept `kept` of changed lists; a read of what it kept counts and reports its word as
another read does (13 R315, R316), and a heal where the word still stands as it was (13 R318). -/
def gateFor (kept : List GateKept) (l t : Nat) (s : State) : Word × State :=
  match kept.find? (·.list == l) with
  | none => gclState l t s
  | some k =>
    if !k.on then (0, s)
    else
      let (v, h, mask) := wordRead k.bad k.stored
      let s := noteRead 4 (k.word * 8) (k.word * 8) h mask s
      (if h == .poisoned then 0 else v, if h == .correctable && rawWord s k.word == k.stored then offerHeal k.word s else s)

/-- Before the lists of `ls` change, searches in flight whose lane has yet to run keep the state those had at their check (09 R221). -/
def holdGates (ls : List Nat) (s : State) : State :=
  let one := fun (q : Srch) =>
    if profSe q.prof.ctl && q.verdict.isNone && q.mem.isNone then
      { q with gates := q.gates ++ (ls.filter fun l => (q.gates.find? (·.list == l)).isNone).map fun l => gateNow s l q.tChk }
    else q
  { s with searches := s.searches.map one }

/-- The lists that the words of a list lie in. -/
def listsAt (ws : List Nat) : List Nat :=
  ((ws.filter fun w => decide (gateBase ≤ w) && decide (w < gateBase + 65536)).map fun w => (w - gateBase) / 64).eraseDups

/-- The enabled lists that generator `g` drives. -/
def gclsOf (s : State) (g : Nat) : List Nat := below 1024 fun l => regB s (gclReg l) 31 && regF s (gclReg l) 30 27 == g

/-! ### Meter (09 R222) -/

/-- Register of meter profile `m` at offset `o`. -/
def mprfReg (m o : Nat) : Nat := 0x61000 + m * 0x10 + o

/-- The unit of a time: 256 ns, modulo 2^24. -/
def meterUnit (t : Nat) : Nat := t / (256 * nsU) % 2 ^ 24

/-- Refills the buckets of a record up to unit `u` and stores `u`. -/
def refillRec (s : State) (u : Nat) (r : List Word) : List Word :=
  let m := fld (rw r 0) 30 23
  let c := regF s (mprfReg m 8) 31 16 * 4096
  let x := regF s (mprfReg m 8) 15 0 * 4096
  let e := (u + 2 ^ 24 - fld (rw r 2) 63 40) % 2 ^ 24
  let r' := recF 2 63 40 u r
  if e = 0 || e ≥ 2 ^ 23 then r'
  else
    let tc := fld (rw r 1) 63 36 + e * regF s (mprfReg m 0) 23 0
    let ov := tc - c
    let te := fld (rw r 1) 35 8 + e * regF s (mprfReg m 4) 23 0 + (if regB s (mprfReg m 0xC) 30 then ov else 0)
    recF 1 35 8 (min te x) (recF 1 63 36 (min tc c) r')

/-! ### The verdict (09 R216, R217) -/

def acPass : Nat := 0
def acDrop : Nat := 1
def acDup : Nat := 2
def acNone : Nat := 3

/-- What a lane has decided so far. -/
structure Verdict where
  action : Nat := 0
  colour : Nat := 3
  reason : Nat := 0
  ipvOn : Bool := false
  ipv : Nat := 0
  meas : Option Int := none
  latches : List Nat := []
  lost : Nat := 0
  rogue : Bool := false
  deriving DecidableEq, Repr

/-- The verdict word (09 Table 9.5). -/
def verdictWord (v : Verdict) (h : Nat) (ts : Nat) : Word :=
  pack 64 [(v.action, 63, 62), (v.colour, 61, 60), (v.reason, 59, 56), (b2n v.ipvOn, 55, 55), (if v.ipvOn then v.ipv else 0, 54, 52),
    (b2n v.meas.isSome, 51, 51), (h, 50, 33),
    (match v.meas with | some o => (BitVec.ofInt 32 o).toNat | none => tNs ts, 31, 0)]

/-- A verdict without a record. -/
def noStream (reason : Nat) : Verdict := { action := acNone, reason := reason }

def dropV (reason : Nat) (v : Verdict) : Verdict := { v with action := acDrop, reason := reason }

/-- Sets a latch of a record: 0 `sdu_blocked`, 1 `gate_inv`, 2 `mark_red` (09 R219). -/
def latch (i : Nat) (r : List Word) (v : Verdict) : List Word × Verdict :=
  if bitAt (rw r 0) (53 - i) then (r, v) else (recF 0 (53 - i) (53 - i) 1 r, { v with latches := v.latches ++ [i] })

/-- The stream filter (09 R217). -/
def filterStage (len : Nat) (r : List Word) (v : Verdict) : List Word × Verdict :=
  let mx := fld (rw r 0) 14 1
  if bitAt (rw r 0) 53 then (r, dropV 2 v)
  else if mx ≠ 0 && len > mx then
    let (r, v) := if bitAt (rw r 0) 57 then latch 0 r v else (r, v)
    (r, dropV 1 v)
  else (r, v)

/-- The stream gate in the state `g` (09 R221). Log 66 (DEDUCED). -/
def gateStage (g : Word) (r : List Word) (v : Verdict) : List Word × Verdict :=
  if bitAt (rw r 0) 52 then (r, dropV 4 v)
  else if !bitAt (rw r 0) 62 then (r, v)
  else
    let v := if bitAt g 30 then { v with ipvOn := bitAt g 31, ipv := fld g 29 27 } else v
    if bitAt g 31 then (r, v)
    else
      let (r, v) := if bitAt (rw r 0) 56 then latch 1 r v else (r, v)
      (r, dropV 3 v)

/-- The flow meter (09 R222). -/
def meterStage (s : State) (len u : Nat) (r : List Word) (v : Verdict) : List Word × Verdict :=
  if !bitAt (rw r 0) 61 then (if bitAt (rw r 0) 51 then (r, dropV 7 { v with colour := 2 }) else (r, v))
  else
    let m := fld (rw r 0) 30 23
    let ctl := getReg s (mprfReg m 0xC)
    let r := refillRec s u r
    let need := (len + fld ctl 5 0) * 4096
    let tc := fld (rw r 1) 63 36
    let te := fld (rw r 1) 35 8
    if bitAt (rw r 0) 51 then (r, dropV 7 { v with colour := 2 })
    else if tc ≥ need then (recF 1 63 36 (tc - need) r, { v with colour := 0 })
    else if te ≥ need then
      let v := { v with colour := 1 }
      (recF 1 35 8 (te - need) r, if bitAt ctl 29 then dropV 6 v else v)
    else
      let v := { v with colour := 2 }
      let (r, v) := if bitAt ctl 28 then latch 2 r v else (r, v)
      (r, dropV 5 v)

/-- Number of bits set. -/
def popcount (n k : Nat) : Nat := (List.range k).foldl (fun a i => a + b2n (n.testBit i)) 0

/-- Sequence recovery of number `q` (09 R223): 0 pass, 1 duplicate, 2 rogue; the record and the numbers lost. -/
def recoverSeq (q : Nat) (r : List Word) : Nat × List Word × Nat :=
  let n := fld (rw r 0) 49 44 + 1
  let win := 2 ^ n - 1
  let seq := fld (rw r 2) 15 0
  let hist := (rw r 3).toNat
  let put := fun (q h : Nat) (r : List Word) => (recF 2 15 0 q r).set 3 (BitVec.ofNat 64 h)
  let d := sgn (BitVec.ofNat 16 (q + 2 ^ 16 - seq))
  if bitAt (rw r 0) 50 then (0, put q win (recF 0 50 50 0 r), 0)
  else if bitAt (rw r 0) 55 then (if q = seq then (1, r, 0) else (0, recF 2 15 0 q r, 0))
  else if d ≥ n || d ≤ -(n : Int) then (2, r, 0)
  else if d ≤ 0 then
    let k := d.natAbs
    if hist.testBit k then (1, r, 0) else (0, put seq (hist + 2 ^ k) r, 0)
  else
    let k := d.toNat
    let gone := hist >>> (n - k) % 2 ^ k
    (0, put q ((hist * 2 ^ k + 1) % (win + 1)) r, k - popcount gone k)

/-- Latent error difference changed by `x` (09 R224). -/
def ledAdd (x : Int) (r : List Word) : List Word :=
  let d := sgn (BitVec.ofNat 7 (fld (rw r 1) 7 1)) + x
  recF 1 7 1 (BitVec.ofInt 7 (max (-64) (min 63 d))).toNat r

/-- The recovery stage (09 R223, R224); `sq` is the sequence number, if the profile has one. -/
def recoverStage (sq : Option Nat) (noseqDrop : Bool) (r : List Word) (v : Verdict) : List Word × Verdict :=
  if !bitAt (rw r 0) 60 then (r, v)
  else match sq with
    | none => (r, if noseqDrop then dropV 10 v else v)
    | some q =>
      let (o, r, lost) := recoverSeq q r
      let v := { v with lost := lost }
      let led := bitAt (rw r 0) 54
      match o with
      | 0 => (if led then ledAdd (fld (rw r 0) 43 41) r else r, v)
      | 1 => (if led then ledAdd (-1) r else r, { v with action := acDup, reason := 8 })
      | _ => (r, dropV 9 { v with rogue := true })

/-! ### Arrival measurement (09 R225-R228) -/

/-- Register of measurement class `c` at offset `o`. -/
def mclsReg (c o : Nat) : Nat := 0x62000 + c * 0x40 + o

/-- Expected point e of a record in units of 2^-32 ns. -/
def expPoint (s : State) (r : List Word) : Nat := fld (rw r 2) 39 16 * (cygPeriod s (fld (rw r 0) 22 19) / nsU) * 256

/-- Distance d of time `t` from the expected point of its cycle, and the number k of that cycle (09 R225). -/
def cycleOf (s : State) (r : List Word) (t : Nat) : Int × Int :=
  let g := fld (rw r 0) 22 19
  let p : Int := cygPeriod s g
  let e : Int := expPoint s r
  let x := ((t : Int) - cygAnchor s g - e) % p
  let d := if 2 * x ≥ p then x - p else x
  (d, ((t : Int) - cygAnchor s g - d - e) / p)

/-- Ticks of a distance, to the nearest, halves away from zero, saturating (09 R225). -/
def ticksOf (g : Grade) (d : Int) : Int :=
  let (num, den) := match g with | .g12 => (5 * d.natAbs, 2 ^ 34) | .g10 => (d.natAbs, 2 ^ 32)
  let q : Int := min 0x7FFFFFFF ((2 * num + den) / (2 * den))
  if d < 0 then -q else q

/-- The window half-width of a record in ticks (09 R228). -/
def winTicks (s : State) (r : List Word) : Nat :=
  let p := cygPeriod s (fld (rw r 0) 22 19) / nsU
  let half := match s.part.grade with | .g12 => p * 5 / 8 | .g10 => p / 2
  min (regF s (mclsReg (fld (rw r 0) 18 15) 0x20) 30 0) (half - 1)

/-- The generator and the class of a record are enabled. -/
def measOn (s : State) (r : List Word) : Bool := cygOn s (fld (rw r 0) 22 19) && regB s (mclsReg (fld (rw r 0) 18 15) 0x1C) 31

/-- A discontinuity forbids the measurement of a frame of CCLK `c` and time `t` in cycle `k` (09 R225). -/
def discBars (s : State) (r : List Word) (c t : Nat) (k : Int) : Bool :=
  match mget s.tb.disc (fld (rw r 0) 22 19) with
  | none => false
  | some d => decide (d.at_ > c) || (d.at_ == c && t == d.t0 && d.t0 != d.t1) ||
      (cycleOf s r d.prev).2 == k || (cycleOf s r d.t1).2 == k

/-- Records an offset (09 R226, R227). -/
def recordOffset (s : State) (o : Int) (r : List Word) : List Word :=
  let c := fld (rw r 0) 18 15
  let os := max (-32768) (min 32767 (o >>> regF s (mclsReg c 0x1C) 3 0))
  let h := (BitVec.ofInt 16 os).toNat
  let r := recF 4 63 48 h r
  let r := if os < sgn (BitVec.ofNat 16 (fld (rw r 4) 47 32)) then recF 4 47 32 h r else r
  let r := if os > sgn (BitVec.ofNat 16 (fld (rw r 4) 31 16)) then recF 4 31 16 h r else r
  let b := ((List.range 7).filter fun i => decide (sgn (getReg s (mclsReg c (4 * i))) ≤ o)).length
  let bin := fun (r : List Word) (i : Nat) => fld (rw r 5) (63 - 8 * i) (56 - 8 * i)
  let r := if bin r b = 255 then
      (List.range 8).foldl (fun (x : List Word) i => recF 5 (63 - 8 * i) (56 - 8 * i) (bin r i / 2) x) r else r
  recF 5 (63 - 8 * b) (56 - 8 * b) (bin r b + 1) r

/-- The measurement stage for a frame of CCLK `c` and time `t` (09 R225-R228). -/
def measureStage (s : State) (c t : Nat) (r : List Word) (v : Verdict) : List Word × Verdict :=
  let on := bitAt (rw r 0) 59 || bitAt (rw r 0) 58
  let (d, k) := cycleOf s r t
  if !on || !measOn s r || discBars s r c t k then (r, v)
  else
    let o := ticksOf s.part.grade d
    let r := if bitAt (rw r 0) 59 then recordOffset s o r else r
    let r := if bitAt (rw r 0) 58 && decide (o.natAbs ≤ winTicks s r) then recF 4 15 8 (k % 256).toNat r else r
    (r, { v with meas := some o })

/-! ### The lane (09 R208-R219) -/

/-- The lane that runs for a search (03 Table 3.13). -/
def laneOf (s : State) (ch : Chn) : Chn :=
  match lockMode s ch with
  | 1 => primaryOf s ch
  | 2 => leadOf s ch
  | _ => ch

/-- Frame length of a search (09 R210). -/
def frameLen (q : Srch) : Nat :=
  let p := q.prof.pos
  let fl := fld q.desc 47 32
  if bitAt p 29 && q.cmd.op == 0x11 && fl != 0 then fl else fld q.key (fld p 18 9 + 15) (fld p 18 9)

/-- Sequence number of a search (09 R210). -/
def frameSeq (q : Srch) : Option Nat :=
  let p := q.prof.pos
  if bitAt p 31 then some (fld q.key (fld p 28 19 + 15) (fld p 28 19)) else none

/-- The functions of a valid record on a frame, in order, up to the first that does not pass it (09 R217). -/
def evaluate (s : State) (q : Srch) (g : Word) (r : List Word) : List Word × Verdict :=
  let len := frameLen q
  let go := fun (x : List Word × Verdict) (f : List Word → Verdict → List Word × Verdict) => if x.2.action = acPass then f x.1 x.2 else x
  let x := filterStage len r {}
  let x := go x (gateStage g)
  let x := go x (meterStage s len (meterUnit q.tChk))
  let x := go x (recoverStage (frameSeq q) (bitAt q.prof.pos 30))
  go x (measureStage s q.cmd.chk q.tChk)

/-- The lane of a search accesses the record of handle `h` in CCLK `n` and gives the verdict; events are staged 11 CCLK later (09
R208, R215, R217, R219). Log 29 (DEDUCED). -/
def laneRun (l : Chn) (q : Srch) (h n : Nat) (s : State) : Word × State :=
  let v := Visitor.lane l
  let (rec, bad, quar, s) := accessRec (n + 11) v h s
  match rec with
  | none => (verdictWord (noStream (if bad || quar then 14 else 13)) h q.tChk, s)
  | some r =>
    let (g, s) := if bitAt (rw r 0) 62 then gateFor q.gates (fld (rw r 0) 40 31) q.tChk s else (0, s)
    let (r, d) := evaluate s q g (recF 1 0 0 1 r)
    let w := verdictWord d h q.tChk
    let (r, s) := recCount (n + 11) v h (if d.action = acDup then 2 else d.action) 1 r s
    let s := d.latches.foldl (fun s i => seEvt (n + 11) v h
      { type := 0x02, source := 0, w1 := pack 64 [(i, 63, 62), (tNs q.tChk, 29, 0)], w2 := pack 64 [(tSec q.tChk, 63, 16)], w3 := w } s) s
    let s := if d.lost = 0 then s else addStat (0x60100 + l * 0x20) d.lost s
    let s := if d.rogue then bump (0x60108 + l * 0x20) s else s
    (w, writeRec h r s)

/-- The lanes that have an access to make up to CCLK `c`. -/
def lanesDue (c : Nat) (s : State) : List Srch :=
  s.searches.filter fun q => q.verdict.isNone && q.handle.isSome && (match q.stage with | .lane del => decide (del + 1 ≤ c) | _ => false)

/-- Every lane has accessed its record as far as CCLK `c` goes: done before anything else touches a record in `c` (09 R218).
Log 29 (DEDUCED). -/
def settleLanes (c : Nat) (s : State) : State :=
  let due := lanesDue c s
  let del := fun (q : Srch) => match q.stage with | .lane d => d | _ => 0
  let due := due.mergeSort fun a b => del a < del b || (del a == del b && (laneOf s a.ch).val ≤ (laneOf s b.ch).val)
  due.foldl (fun s q =>
    let (w, s) := laneRun (laneOf s q.ch) q (q.handle.getD 0) (del q + 1) s
    { s with searches := s.searches.map fun x => if x.cmd.id = q.cmd.id then { x with verdict := some w } else x }) s

/-! ### Commands (09 R212-R214) -/

/-- State fields of W0. -/
def stateBits : Word := ones 53 50 ||| ones 0 0

/-- A record write breaks the last conditions of 09 R213. -/
def recBad (s : State) (w0 : Word) : Bool :=
  bitAt w0 63 && ((bitAt w0 62 && !regB s (gclReg (fld w0 40 31)) 31) || (bitAt w0 61 && !regB s (mprfReg (fld w0 30 23) 0xC) 31) ||
    ((bitAt w0 59 || bitAt w0 58) && !measOn s [w0]))

/-- The current closed cycle of a record at time `t` (09 R229); the spec gives none where the generator is disabled. -/
def closedCycle (r : List Word) (t : Nat) (s : State) : Nat × State :=
  let g := fld (rw r 0) 22 19
  if !cygOn s g then
    let (v, s) := draw s
    (v.toNat % 256, s)
  else
    let x : Int := (t : Int) - cygAnchor s g - expPoint s r
    let p : Int := cygPeriod s g
    let c := match s.part.grade with
      | .g12 => (5 * x - (winTicks s r * 2 ^ 34 : Nat)) / (5 * p)
      | .g10 => (x - (winTicks s r * 2 ^ 32 : Nat)) / p
    ((c % 256).toNat, s)

/-- Sets `ok_cyc` and `rep_cyc` of a record to its current closed cycle. -/
def armWatch (t : Nat) (r : List Word) (s : State) : List Word × State :=
  let (c, s) := closedCycle r t s
  (recF 4 15 8 c (recF 4 7 0 c r), s)

/-- A stream command joins the queue of slot C, of 64 (15 Table 15.2). -/
def seJoin (c : Cmd) (s : State) : State :=
  let (u, x) := s.se.join 64 c
  noPlace x { s with se := u }

/-- The CCLK of slot C for the command `c` at the head of its queue: the background pass goes ahead (09 R230). Log 8 (DESIGN CHOICE). -/
def slotC (c : Cmd) (s : State) : Nat :=
  let n := max s.se.free c.chk
  if n % max 1 (regF s 0x60000 12 0) = 0 then n + 1 else n

/-- The access returns its bank group to ON and completes 8 us later (11 R281). -/
def seAccess (c : Cmd) (h : Nat) (act : State → State) (s : State) : State :=
  match sleepers s [recWord h 0] with
  | g :: _ => waitBg g (some c) s
  | [] => act s

/-- STM_WR of a record (09 R214, R215). One with `cfg_only` that finds poison answers ST_POISON. Log 105 (DEDUCED). -/
def stmWrRec (n : Nat) (c : Cmd) (s : State) : State :=
  let h := argF c 17 0
  let part := argF c 22 22 == 1
  let w0 := payW c 0
  let t := timeAt n s
  match firstBad [(payN c != (if part then 2 else 8), stBadLen),
      (argF c 21 18 != 0 || (part && (w0 &&& stateBits != 0 || fld (payW c 1) 63 24 != 0)) || (!part && bitAt w0 0) || recBad s w0, stBadArg)] with
  | some st => replyAt n c st 0 [] s
  | none => seAccess c h (fun s =>
      if !part then
        let r := recF 2 63 40 (meterUnit t) c.p.pay
        let (r, s) := if bitAt w0 58 then armWatch t r s else (r, s)
        replyAt (n + 2) c stOk 0 [] (writeRec h r s)
      else
        let (r, mask, s) := readLive h s
        if mask != 0 then replyAt (n + 2) c stPoison 0 [] (quarantine n .command h mask s)
        else
          let old := rw r 0
          let r := r.set 0 ((w0 &&& ~~~stateBits) ||| (old &&& stateBits))
          let r := recF 2 39 16 (fld (payW c 1) 23 0) r
          let (r, s) := if bitAt w0 58 && !bitAt old 58 then armWatch t r s else (r, s)
          let s := writeMem (recWord h 0) 0xff (rw r 0) s
          let s := writeMem (recWord h 2) 0x1C (rw r 2) s
          let s := if bitAt w0 58 && !bitAt old 58 then writeMem (recWord h 4) 0x03 (rw r 4) s else s
          replyAt (n + 2) c stOk 0 [] s) s

/-- STM_WR of a gate list (09 R213, R220). Log 88 (DEDUCED). -/
def stmWrList (n : Nat) (c : Cmd) (s : State) : State :=
  let l := argF c 9 0
  let first := argF c 15 10
  let hdr := getReg s (gclReg l)
  match firstBad [(payN c == 0 || decide (first + payN c > 64), stBadLen),
      (argF c 22 16 != 0 || c.p.pay.any (fun w => fld w 26 0 != 0) ||
        (bitAt hdr 31 && !gclRising s l (fld hdr 5 0) first c.p.pay), stBadArg)] with
  | some st => replyAt n c st 0 [] s
  | none => replyAt (n + 2) c stOk 0 [] (writeMems (gclWord l first) c.p.pay (holdGates [l] s))

/-- STM_WR in CCLK `n` of slot C (09 R212-R214). Log 8 (DESIGN CHOICE). Log 67 (DEDUCED). Log 88 (DEDUCED). -/
def stmWrRun (n : Nat) (c : Cmd) (s : State) : State := if argF c 23 23 = 0 then stmWrRec n c s else stmWrList n c s

/-- STM_RD in CCLK `n` of slot C (09 R212-R215). Log 67 (DEDUCED). -/
def stmRdRun (n : Nat) (c : Cmd) (s : State) : State :=
  let list := argF c 23 23 == 1
  let h := argF c 17 0
  match firstBad [(payN c != 0, stBadLen), (argF c 22 18 != 0 || (list && argF c 17 10 != 0), stBadArg)] with
  | some st => replyAt n c st 0 [] s
  | none =>
    if list then
      let (vs, ps, s) := readMems (gclWord (argF c 9 0) 0) 64 0 s
      replyAt (n + 2) c (memStatus (!ps.isEmpty) false) 0 vs s
    else seAccess c h (fun s =>
      let (r, mask, s) := readRec h s
      replyAt (n + 2) c (memStatus (mask != 0) false) 0 r s) s

/-- The fields that STM_CLR changes: word, bytes of the word written, and the new word (09 Table 9.4). -/
def stmClear (c : Cmd) (s : State) (u : Nat) (r : List Word) : List Word :=
  let on := fun i => argF c i i == 1
  let m := fld (rw r 0) 30 23
  let r := if on 23 then (r.set 6 0).set 7 0 else r
  let r := if on 22 then (recF 4 63 48 0 (recF 4 47 32 0x7FFF (recF 4 31 16 0x8000 r))).set 5 0 else r
  let r := if on 21 then recF 0 53 51 0 r else r
  let r := if on 20 then (recF 0 50 50 1 (recF 2 15 0 0 (recF 1 7 1 0 r))).set 3 0 else r
  if on 19 then recF 1 63 36 (regF s (mprfReg m 8) 31 16 * 4096) (recF 1 35 8 (regF s (mprfReg m 8) 15 0 * 4096) (recF 2 63 40 u r)) else r

/-- The bytes of word `i` that STM_CLR sets whole (09 Table 9.4). -/
def stmClearBytes (c : Cmd) (i : Nat) : Byte :=
  let on := fun (k : Nat) (m : Byte) => if argF c k k == 1 then m else 0
  match i with
  | 1 => on 19 0xFE
  | 2 => on 20 0x03 ||| on 19 0xE0
  | 3 => on 20 0xFF
  | 4 => on 22 0xFC
  | 5 => on 22 0xFF
  | 6 | 7 => on 23 0xFF
  | _ => 0

/-- The bytes in which two words differ. -/
def diffBytes (a b : Word) : Byte := maskOf 8 8 fun k => (a ^^^ b).extractLsb' (8 * k) 8 != 0

/-- STM_CLR in CCLK `n` of slot C (09 R212-R214). It writes the bytes that it sets whole, and those it changes; the others keep their stored
state. -/
def stmClrRun (n : Nat) (c : Cmd) (s : State) : State :=
  let h := argF c 17 0
  match firstBad [(payN c != 0, stBadLen), (argF c 18 18 != 0 || argF c 23 19 == 0, stBadArg)] with
  | some st => replyAt n c st 0 [] s
  | none =>
    let raw := (List.range 8).map fun i => match rawWord s (recWord h i) with | some x => (decodeWord x).1 | none => 0
    let r := stmClear c s (meterUnit (timeAt n s)) raw
    let s := (List.range 8).foldl (fun s i =>
      let be := stmClearBytes c i ||| diffBytes (rw r i) (rw raw i)
      if be = 0 then s else writeMem (recWord h i) be (rw r i) s) s
    replyAt (n + 2) c stOk 0 [] s

/-- Runs a stream command in CCLK `n` of slot C (15 Table 15.2). -/
def seExec (n : Nat) (c : Cmd) (s : State) : State :=
  match c.op.toNat with
  | 0x30 => stmWrRun n c s
  | 0x31 => stmRdRun n c s
  | _ => stmClrRun n c s

/-- Slot C takes its commands as far as the present CCLK goes, each after the lanes that access before it (09 R218); one whose reply lacks
slots waits (14 R347). -/
def seTake : Nat → State → State
  | 0, s => s
  | k + 1, s =>
    match s.se.queue with
    | [] => s
    | c :: t =>
      let n := slotC c s
      if n > s.cclk || slotsShort s c then s else seTake k (seExec n c (settleLanes n { s with se := { s.se with queue := t, free := n + 1 } }))

/-- The commands and the lanes have accessed their records as far as the present CCLK goes (09 R218). -/
def seServe (s : State) : State :=
  let s := seTake 64 s
  settleLanes s.cclk s

/-! ### Sweep and background pass (09 R224, R229, R230) -/

/-- The handle after `h` in the sweep. -/
def wdAfter (s : State) (h : Nat) : Nat := if h = regF s 0x6000C 17 0 then regF s 0x60008 17 0 else (h + 1) % 262144

/-- The watchdog's judgement of a record at its visit (09 R229). -/
def wdJudge (h : Nat) (r : List Word) (s : State) : State :=
  let n := s.cclk
  let g := fld (rw r 0) 22 19
  let put := fun (r : List Word) (s : State) => writeMem (recWord h 4) 0x03 (rw r 4) s
  if !bitAt (rw r 0) 58 || !measOn s r then s
  else
    let (c, s) := closedCycle r s.tb.t s
    let d := (mget s.tb.disc g).map (·.at_)
    if d.isSome && mget s.wdDisc h != d then
      put (recF 4 15 8 c (recF 4 7 0 c r)) { s with wdDisc := mset s.wdDisc h (d.getD 0) }
    else
      let m := min ((c + 256 - fld (rw r 4) 15 8) % 256) ((c + 256 - fld (rw r 4) 7 0) % 256)
      let r := recF 4 7 0 c r
      if m = 0 then put r s
      else
        let (r, s) := recCount n .sweep h 3 m r s
        let s := seEvt n .sweep h { type := 0x03, source := 0, w1 := pack 64 [(m, 63, 56), (c, 55, 48)], w2 := rw r 4, w3 := rw r 7 } s
        writeMem (recWord h 7) 0x0F (rw r 7) (put r s)

/-- WATCHDOG_SWEEP_VISIT: the next visit of the sweep, in the CCLK after the last one at the earliest (09 R229). -/
def sweepRun (s : State) : State :=
  if !regB s 0x60008 31 then s
  else
    let s := seServe (advanceTo s.wdAt s)
    let h := s.wdNext
    let s := { s with wdNext := wdAfter s h, wdAt := s.cclk + 1 }
    if asleep s (recWord h 0) then s
    else match accessRec s.cclk .sweep h s with
      | (none, _, _, s) => s
      | (some r, _, _, s) => wdJudge h r s

/-- What the background pass does to a valid record (09 R222, R224, R230). -/
def bgVisit (h : Nat) (r : List Word) (s : State) : State :=
  let r0 := r
  let r := if bitAt (rw r 0) 61 then refillRec s (meterUnit s.tb.t) r else r
  let r := if bitAt (rw r 0) 60 && !bitAt (rw r 1) 0 then recF 0 50 50 1 r else r
  let r := recF 1 0 0 0 r
  let d := sgn (BitVec.ofNat 7 (fld (rw r 1) 7 1))
  let test := bitAt (rw r 0) 54 && s.bgPass % max 1 (regF s 0x60000 27 20) == 0
  let s := if test && decide (d.natAbs > regF s 0x60000 19 14) then
      seEvt s.cclk .background h { type := 0x04, source := 0, w1 := pack 64 [(fld (rw r 1) 7 1, 63, 57)], w2 := rw r 2, w3 := rw r 3 } s
    else s
  let r := if test then recF 1 7 1 0 r else r
  (List.range 3).foldl (fun s i => if rw r i = rw r0 i then s else writeMem (recWord h i) 0xff (rw r i) s) s

/-- BACKGROUND_VISIT: the next visit of the background pass, in the next CCLK whose number is a multiple of `bg_div` (09 R230). -/
def backgroundRun (s : State) : State :=
  let d := max 1 (regF s 0x60000 12 0)
  let s := seServe (advanceTo (cdiv (max s.cclk s.bgAt) d * d) s)
  let h := s.bgNext
  let s := { s with bgAt := s.cclk + 1, bgNext := (h + 1) % 262144 }
  let s := if asleep s (recWord h 0) then s
    else match accessRec s.cclk .background h s with
      | (none, _, _, s) => s
      | (some r, _, _, s) => bgVisit h r s
  if h = 262143 then { s with bgPass := s.bgPass + 1 } else s

end Sys2Proof.Machine
end

