-- ==== Sys2Proof/Machine/Search.lean ====
section
/-! DEFINITION. Searches from their check to their reply (01 R19-R22; 03 R72, R77, R88; 04 R89-R114; 05 R115-R128; 06 R160, R161; 11
R265-R275; 15 R378). -/

namespace Sys2Proof.Machine

/-! ### Profile and tag context -/

/-- Profile `p` as it stands (03 R72). -/
def profOf (s : State) (p : Nat) : Prof :=
  let ctl := getReg s (profReg p 0)
  let lks := profLks s p
  { ctl := ctl, kb := getReg s (profReg p 4), se := getReg s (profReg p 8), lk := lks, pos := getReg s (0x60400 + 4 * p),
    g := lks.map fun l => cfgG (cfgOf s (profChan ctl) (lkPart l)) }

/-- Profile number of a search command. -/
def srchProf (c : Cmd) : Nat := argF c 6 0

/-- The lead of the group that a search's profile targets. -/
def profLead (p : Prof) : Chn := profChan p.ctl

/-- The admission stage of a channel: that of the lead in a TWIN or SPAN pair, its own otherwise (03 R76, R77). -/
def stageOf (s : State) (c : Chn) : Chn :=
  match lockMode s c with
  | 1 | 2 => leadOf s c
  | _ => c

/-- Member `n` of a list of channels, counting round. -/
def memberAt (l : List Chn) (n : Nat) (c : Chn) : Chn := l.getD (n % max 1 l.length) c

/-- The member that the pointer of a REPLICA group names, and the state whose pointer has moved on (03 R77). Log 51 (DEDUCED). -/
def giveMember (c : Chn) (s : State) : Chn × State :=
  let l := leadOf s c
  let ms := groupOf s c
  let n := (chan s l).replicaNext
  (memberAt ms n c, modChan l (fun k => { k with replicaNext := (n + 1) % max 1 ms.length }) s)

/-- Source of a search for arbitration (01 R444). -/
def srchSrc (q : Srch) : Nat := if q.mem.isSome then 10 else srcOf q.cmd

/-- Searches in flight counted against a channel: one offered to a REPLICA group from the CCLK in which it is given to a member (05 R127).
Log 51 (DEDUCED). -/
def inFlight (s : State) (c : Chn) : Nat :=
  (s.searches.filter fun q => q.mem.isNone && q.given && q.ch == c).length + (s.replies.filter fun r => r.cnt == some c).length +
    (s.qm.done.filter fun r => r.2.cnt == some c).length

/-- No search that passed its check for the group of `l` is in flight (05 R134). -/
def drained (s : State) (l : Chn) : Bool :=
  (groupOf s l).all (fun m => inFlight s m == 0) && s.searches.all fun q => q.given || leadOf s q.ch != l

/-- The group of a channel refuses searches with ST_QUIESCED (03 R88; 17 R405, R407, R416). -/
def shut (s : State) (c : Chn) : Bool :=
  let k := chan s (leadOf s c)
  !k.ready || k.quiesced || k.draining || k.resetting.isSome

/-- The reply of a search is ordered (05 R116). -/
def srchOrd (s : State) (c : Cmd) (p : Prof) : Bool :=
  c.wq.isNone && decide (c.p.ap.val < 8) && (c.p.ord || (profOn p.ctl && lockMode s (profLead p) == 3))

/-- Changes the search of a command. -/
def modSrch (id : Nat) (f : Srch → Srch) (s : State) : State :=
  { s with searches := s.searches.map fun q => if q.cmd.id = id then f q else q }

/-- Takes the search of a command out. -/
def dropSrch (id : Nat) (s : State) : State := { s with searches := s.searches.filter (·.cmd.id != id) }

/-! ### Replies -/

/-- `held` and the buffer handle in `info` (05 Table 5.3). -/
def heldInfo (q : Srch) : Nat := match q.held with | some b => b.toNat * 2 ^ 9 + 2 ^ 8 | none => 0

/-- The ring slot that a search holds: from CCLK f on (07 R178). -/
def slotOf (q : Srch) : Option (BitVec 9) := (q.org.filter fun o => o.f != 0).map (·.slot)

/-- Forgets a result cell that came back ahead of its search's own results: the search is refused (07 R182). -/
def dropBack (q : Srch) (s : State) : State :=
  match slotOf q with
  | some n => { s with ring := { s.ring with back := s.ring.back.filter (·.slot != n) } }
  | none => s

/-- Ends a search with a header-only reply that starts 2 CCLK later; a cascade member sets the code of 07 Table 7.5 instead. One that no
member has yet counts in flight against none. -/
def refuseSrch (q : Srch) (st : Byte) (stamp : Nat) (s : State) : State :=
  match q.mem with
  | some m =>
    let code : BitVec 3 := if st = stBudget then 1 else if st = stThermal then 2 else if st = stQuiesced then 3
      else if st = stStaleNeg then 5 else 4
    dropSrch q.cmd.id { s with ring := { s.ring with refuse := s.ring.refuse ++ [(m.origin, m.slot, code)] } }
  | none =>
    let r := { mkReply q.cmd st (heldInfo q + stamp) [] (s.cclk + 2) with
      ord := q.ord, cnt := if q.given then some q.ch else none, ringSlot := slotOf q }
    sendReply q.cmd r (dropSrch q.cmd.id (dropBack q s))

/-- Refuses a search whose stamp is stale: the reply carries the group's current stamp (06 R160, R161). -/
def refuseStale (q : Srch) (v : Byte) (l : Chn) (s : State) : State :=
  match q.mem with
  | some _ => refuseSrch q stStaleNeg 0 s
  | none =>
    let r := { mkReply q.cmd stStaleNeg (heldInfo q + v.toNat) [] (s.cclk + 2) with
      ord := q.ord, cnt := some q.ch, stamp := some (l, v), ringSlot := slotOf q }
    sendReply q.cmd r (dropSrch q.cmd.id (dropBack q s))

/-- Refuses a search at its check: nothing is counted in flight. -/
def refuseAtCheck (c : Cmd) (p : Prof) (st : Byte) (s : State) : State :=
  sendReply c { mkReply c st 0 [] (s.cclk + 2) with ord := srchOrd s c p } s

/-- Words of one lookup in the reply: the result word and A_j words of associated data (05 Table 5.2). -/
def lkWords (q : Srch) (j : Nat) (r : LkRes) : List Word :=
  resultWord q.cause r :: (List.range (lkAd (nth q.prof.lk j 0))).map fun k => nth r.ad k 0

/-- The poison report (05 Table 5.5); none where nothing is poisoned. -/
def poisonReport (rs : List LkRes) : Option Word :=
  let ad : BitVec 64 := maskOf 64 32 fun i => nth (nth rs (i / 8) {}).adPois (i % 8) false
  let pr : BitVec 64 := maskOf 64 4 fun j => (nth rs j {}).prioPois
  if ad == 0 && pr == 0 then none else some (ad <<< 32 ||| pr)

/-- The key image as 10 words (04 R96). -/
def keyWords (k : Key) : List Word := (List.range 10).map fun j => k.extractLsb' (64 * (9 - j)) 64

/-- The poison report of a poisoned tag context: every bit set (13 Table 13.4). -/
def allPoison : Word := ones 63 32 ||| ones 3 0

/-- The full-layout reply of a search, complete in CCLK `ready` (05 R117-R119, R123-R126). -/
def srchReply (q : Srch) (rs : List LkRes) (rep : Option Word) (verdict : Option Word) (ready : Nat) (s : State) : State :=
  let rs := if q.ctxBad then rs.map fun _ => {} else rs
  let rep := if q.ctxBad then some allPoison else rep
  let lks := rs.zipIdx.flatMap fun x => if q.ctxBad then List.replicate (1 + lkAd (nth q.prof.lk x.2 0)) 0 else lkWords q x.2 x.1
  let part := rs.any (·.part)
  let v := match verdict with | some w => [w] | none => []
  let k := if q.cmd.op == 0x11 && argF q.cmd 13 13 == 1 then keyWords q.key else []
  let st := if rep.isSome then stPoison else if part then stPartial else stOk
  let pay := lks ++ v ++ k ++ rep.toList
  let r := { mkReply q.cmd st (heldInfo q + q.stamp.toNat) pay ready with
    ord := q.ord, cnt := some q.ch, stamp := some (leadOf s q.ch, q.stamp), ringSlot := slotOf q }
  sendReply q.cmd r (dropSrch q.cmd.id s)

/-- The outcome of every lookup of a search that missed (02 R55). -/
def missAll (s : State) (q : Srch) (part : Bool) : List LkRes :=
  let label := if lockMode s q.ch == 1 then primaryOf s q.ch else if lockMode s q.ch == 2 then leadOf s q.ch else q.ch
  (q.prof.lk.zip q.prof.g).map fun x =>
    { dev := s.dev.devId, chan := BitVec.ofNat 2 label, partition := BitVec.ofNat 6 (lkPart x.1), part := part,
      ad := List.replicate x.2 0, adPois := List.replicate x.2 false }

/-! ### The check (15 R378; 04 R93; 03 R72, R88; 05 R128) -/

/-- A configuration table word of the profile or of a partition it names is poisoned in both copies (13 Table 13.4). -/
def cfgPoison (s : State) (p : Nat) : Bool :=
  s.cfgBad.contains p ||
    (profLks s p).any fun l => s.cfgBad.contains (128 + (profChan (getReg s (profReg p 0))).val * 64 + lkPart l)

/-- The checks of SRCH and SRCH2 before R88's (15 R378). -/
def srchBad (s : State) (c : Cmd) : Option Byte :=
  let p := srchProf c
  let ctl := getReg s (profReg p 0)
  firstBad [(payN c == 0 || decide (payN c > 10), stBadLen),
    (argF c 23 16 != 0 || argF c 7 7 != 0 || (c.op == 0x10 && argF c 15 8 != 0) || !profOn ctl || (c.op == 0x10 && profKey ctl) ||
      cfgPoison s p, stBadArg)]

/-- Buffers that a snippet needs (04 R93). -/
def snipBufs (len : Nat) : Nat := if len > 128 then 2 else 1

/-- The checks of HSRCH before R88's (04 R92, R93, 12 R306). Log 56 (DEDUCED). -/
def hsrchBad (s : State) (c : Cmd) : Option Byte :=
  let w := payW c 0
  let from_ := argF c 12 12 == 1
  let hold := argF c 11 11 == 1
  let len := fld w 8 0
  let b := fld w 63 49
  let ctl := getReg s (profReg (srchProf c) 0)
  firstBad [(payN c != (if from_ then 1 else 1 + lenWords len), stBadLen),
    (argF c 23 14 != 0 || fld w 48 48 != 0 || fld w 30 29 != 0 || fld w 15 9 != 0 || (!from_ && b != 0) ||
      (if from_ then len != 0 else len == 0 || decide (len > 256)) || (hold && from_) ||
      (!from_ && !tailClear len (c.p.pay.drop 1)) || pclsOff (pclsNow s (argF c 10 7)) ||
      !profOn ctl || !profKey ctl || cfgPoison s (srchProf c), stBadArg),
    (from_ && (badHandle s b || decide ((bufTag s b).count ≥ 255)), stBadArg),
    (from_ && !holds s b c.p.ap, stNotHolder),
    (hold && decide (availLo s s.cclk + availHi s s.cclk < snipBufs len), stNoBuffer)]

/-- Ring slots of the origin in use: searches, and replies not yet sent (07 R178). -/
def slotsHeld (s : State) : List (BitVec 9) :=
  s.searches.filterMap slotOf ++ s.replies.filterMap (·.ringSlot) ++ s.qm.done.filterMap (·.2.ringSlot)

/-- A free ring slot. Log 64 (DEDUCED). -/
def freeSlot (s : State) : Option (BitVec 9) :=
  ((List.range 512).find? fun i => !(slotsHeld s).contains (BitVec.ofNat 9 i)).map (BitVec.ofNat 9)

/-- Cascaded searches that have passed their check and not come to CCLK f: each is sure of a slot (07 R178). -/
def slotsOwed (s : State) : Nat := (s.searches.filter fun q => match q.org with | some o => o.f == 0 | none => false).length

/-- The search's profile is cascaded and the part is not OFF (07 R172). Log 64 (DEDUCED). -/
def cascaded (s : State) (p : Nat) : Bool := profCasc s p && s.ring.st != .off

/-- A search wakes its group: counted and posted when it starts the wake (11 R274, R275). Log 53 (DEDUCED). -/
def demandWake (q : Srch) (s : State) : State :=
  let l := leadOf s q.ch
  let p := pwrOf s l
  let fresh := p.waking.isNone && (if p.entering.isSome then p.demand.isNone else p.st != .active)
  if !fresh then s
  else
    let from_ := match p.entering with | some (t, _, _) => t | none => p.st
    let s := addStat (chAddr l 0x6030) 1 (startWake l 2 s)
    postDev 8 { type := 0x52, source := BitVec.ofNat 18 l,
                w1 := pack 64 [(pwrCode from_, 63, 62), (q.cls.toNat, 61, 60), (q.cmd.p.tag.toNat, 49, 36), (srchProf q.cmd, 35, 29)] } s

/-- A search passes its check: it counts as in flight (05 R127) and holds its profile, port class, ingress time and phase. -/
def accept (c : Cmd) (p : Prof) (ch : Chn) (org : Option CascO) (q : Srch → Srch) (s : State) : State :=
  let cyg := fld p.kb 29 26
  let x := q { cmd := c, tChk := s.tb.t, phase := phaseNow s cyg, prof := p, ch := ch, cls := if org.isSome then 0 else c.p.cls,
               ord := srchOrd s c p, org := org, given := lockMode s ch != 3, stage := .offer (s.cclk + 4), stampIn := BitVec.ofNat 8 (argF c 15 8) }
  demandWake x { s with searches := s.searches ++ [x] }

/-- The last checks of a search, and `go` with the channel it counts against and the ring slot it takes (03 R88, 05 R128, 07 R178). The
limit of a REPLICA group's member is tested when the search is given to it; one refused here is given to no member. Log 51 (DEDUCED). -/
def srchEnter (c : Cmd) (go : Prof → Chn → Option CascO → State → State) (s : State) : State :=
  let p := profOf s (srchProf c)
  let l := leadOf s (profLead p)
  if shut s l then refuseAtCheck c p stQuiesced s
  else if lockMode s l != 3 && decide (inFlight s l ≥ 4096) then refuseAtCheck c p stFull (bump (chAddr l 0x4008) s)
  else if cascaded s (srchProf c) then
    if (slotsHeld s).length + slotsOwed s ≥ 512 then refuseAtCheck c p stFull s else go p l (some ⟨0, 0, 0, 0, false⟩) s
  else go p l none s

/-- A search of a REPLICA group gets its member, or is refused when that member has 4,096 in flight (03 R77, 04 R90, 05 R128); a walk of a
held snippet gives up its reference then (12 R306). Log 51 (DEDUCED). -/
def giveOne (q : Srch) (s : State) : State :=
  let (m, s) := giveMember q.ch s
  if q.mem.isNone && decide (inFlight s m ≥ 4096) then
    let s := match q.fromBuf with | some b => dropWalk b.toNat s.cclk s | none => s
    refuseSrch q stFull 0 (bump (chAddr m 0x4008) s)
  else modSrch q.cmd.id (fun q => { q with ch := m, given := true }) s

/-- Searches of one CCLK are given in the rotating order of their sources (03 R77, 01 R444). -/
def giveSame (l : Chn) (qs : List Srch) (s : State) : State :=
  let rot := (chan s l).rotGive
  let qs := qs.mergeSort fun a b =>
    let x := rotRank rot (srchSrc a)
    let y := rotRank rot (srchSrc b)
    decide (x < y) || (x == y && decide (a.cmd.id ≤ b.cmd.id))
  let s := match qs with
    | q :: t => if t.any fun x => srchSrc x != srchSrc q then modChan l (fun k => { k with rotGive := (srchSrc q + 1) % 11 }) s else s
    | [] => s
  qs.foldl (fun s q => giveOne q s) s

/-- The CCLK in which a search is given to a member: that of its offer, or of its handover to the key builder (03 R77, 04 R90). -/
def turnOf (q : Srch) : Nat :=
  match q.stage with
  | .snippet d | .offer d => d
  | _ => 0

/-- Searches offered to the group of `l` that have no member yet. -/
def ungiven (s : State) (l : Chn) : List Srch := s.searches.filter fun q => !q.given && leadOf s q.ch == l

/-- Gives the searches of the group of `l` their members, CCLK by CCLK, up to the CCLK that `upTo` answers; while it answers none, on and
on. `fuel` is their number at most. -/
def giveUntil (l : Chn) (upTo : State → Option Nat) : Nat → State → State
  | 0, s => s
  | k + 1, s =>
    match ((ungiven s l).map turnOf).min? with
    | none => s
    | some d =>
      if (match upTo s with | some n => decide (n < d) | none => false) then s
      else giveUntil l upTo k (giveSame l ((ungiven s l).filter fun q => turnOf q == d) (advanceTo d s))

/-- The group of `c` gives out the searches whose turn has come by the CCLK of its next event (03 R77, 04 R90). -/
def giveTurns (c : Chn) (upTo : State → Option Nat) (s : State) : State :=
  if s.searches.all (·.given) then s else giveUntil (leadOf s c) upTo s.searches.length s

/-- The state in which every search whose turn has come has its member. -/
def giveDue (s : State) : State :=
  (List.finRange 4).foldl (fun s c => if leadOf s c == c then giveTurns c (fun _ => some s.cclk) s else s) s

/-- The key image that SRCH and SRCH2 carry (15 R378). -/
def carriedKey (c : Cmd) : Key := BitVec.ofNat 640 (c.p.pay.foldl (fun a w => a * 2 ^ 64 + w.toNat) 0)

/-- SRCH and SRCH2 (15 R378). Log 51 (DEDUCED). -/
def srchRun (c : Cmd) (s : State) : State :=
  match srchBad s c with
  | some st => refuseAtCheck c (profOf s (srchProf c)) st s
  | none => srchEnter c (fun p ch org => accept c p ch org fun q => { q with key := carriedKey c }) s

/-- HSRCH with its snippet held (04 R94). -/
def holdSnippet (c : Cmd) (p : Prof) (ch : Chn) (org : Option CascO) (pc : Reg) (s : State) : State :=
  let w := payW c 0
  let len := fld w 8 0
  match allocBuf c.p.ap len s.cclk s with
  | (none, s) => refuseAtCheck c p stNoBuffer s
  | (some b, s) =>
    let s := ((c.p.pay.drop 1).zipIdx).foldl (fun s x => writeMem (snipWord s b x.2) 0xff x.1 s) s
    accept c p ch org (fun q => { q with stage := .snippet (s.cclk + 4), desc := w, bytes := snipBytes (c.p.pay.drop 1) len, pcls := pc,
                                         held := some (BitVec.ofNat 15 b) }) s

/-- HSRCH (04 R91-R95). -/
def hsrchRun (c : Cmd) (s : State) : State :=
  let w := payW c 0
  match hsrchBad s c with
  | some st => refuseAtCheck c (profOf s (srchProf c)) st s
  | none => srchEnter c (fun p ch org s1 =>
      let pc := pclsNow s1 (argF c 10 7)
      if argF c 11 11 = 1 then holdSnippet c p ch org pc s1
      else if argF c 12 12 = 1 then
        let b := fld w 63 49
        accept c p ch org (fun q => { q with stage := .snippet (s1.cclk + 4), desc := w, pcls := pc, fromBuf := some (BitVec.ofNat 15 b) })
          (addWalk b s1)
      else accept c p ch org (fun q => { q with stage := .snippet (s1.cclk + 4), desc := w, pcls := pc,
                                                bytes := snipBytes (c.p.pay.drop 1) (fld w 8 0) }) s1) s

/-! ### The key builder (04 R89-R114) -/

/-- The searches of a builder in a stage, oldest due first. -/
def dueIn (s : State) (c : Chn) (f : Stage → Option Nat) : List (Nat × Srch) :=
  (s.searches.filterMap fun q => match f q.stage with
    | some d => if q.given && stageOf s q.ch == stageOf s c then some (d, q) else none
    | none => none).mergeSort fun a b => a.1 ≤ b.1

/-- The bytes of a held snippet as the builder copies them; the spec gives no reader's outcome for a poisoned word of it.
Log 54 (DESIGN CHOICE). -/
def copySnippet (b : Nat) : Nat → Nat → State → List Word × State
  | 0, _, s => ([], s)
  | k + 1, i, s =>
    let (v, bad, s) := readMem (snipWord s b i) s
    let (v, s) := if bad then draw s else (v, s)
    let (vs, s) := copySnippet b k (i + 1) s
    (v :: vs, s)

/-- The state with the templates as they stood in CCLK `n`: a write in `n` or later reaches only snippets handed over after it (04 R103). -/
def tplAt (n : Nat) (s : State) : State :=
  (s.tplWas.filter fun x => decide (n ≤ x.2.1)).foldr (fun x s => setReg x.1 x.2.2 s) s

/-- Copies the snippet of buffer `b` for the search of a command. -/
def copyFor (id b : Nat) (s : State) : State :=
  let len := (bufTag s b).len
  let (ws, s) := copySnippet b (lenWords len) 0 s
  modSrch id (fun q => { q with bytes := snipBytes ws len }) s

/-- Searches that walk a held snippet and are handed over by the present CCLK. -/
def copiesDue (s : State) : List (Nat × Nat) :=
  s.searches.filterMap fun q => match q.stage, q.fromBuf with
    | .snippet d, some b => if d ≤ s.cclk then some (q.cmd.id, b.toNat) else none
    | _, _ => none

/-- The handover copies of the present CCLK, ahead of the pool's other operations (12 R307). -/
def copyDue (s : State) : State :=
  (copiesDue s).foldl (fun s x => if (s.searches.any fun q => q.cmd.id == x.1 && q.bytes.isEmpty) then copyFor x.1 x.2 s else s) s

/-- Drops the references of the handover copies of the present CCLK (12 R306, R307). -/
def dropDue (s : State) : State :=
  (copiesDue s).foldl (fun s x => dropWalk x.2 s.cclk (modSrch x.1 (fun q => { q with fromBuf := none }) s)) s

/-- An HSRCH passes its check: one that holds its snippet asks the pool for buffers together with the other requests of the CCLK (04 R93, 12
R302); one that reads a held snippet takes its reference at once, ahead of the pool's requests of the CCLK. Log 117 (DESIGN CHOICE). -/
def hsrchIn (c : Cmd) (s : State) : State :=
  if argF c 11 11 = 1 then { s with pool := { s.pool with asks := s.pool.asks ++ [c] } } else hsrchRun c s

/-- The units that take commands from a queue of their own go on in the present CCLK (15 R373). -/
def serveUnits (s : State) : State := seServe (qmServe (poolServe copyDue dropDue hsrchRun s))

/-- SNIPPET_HANDOVER: the builder copies a snippet, drops the transient reference, and walks it (04 R89, R95; 12 R306, R307). In a REPLICA
group the member is chosen first (04 R90). -/
def snippetHandoverRun (c : Chn) (s : State) : State :=
  let due := fun (s : State) => dueIn s c fun st => match st with | .snippet d => some d | _ => none
  let s := giveTurns c (fun s => (due s).head?.map (·.1)) s
  match due s with
  | [] => s
  | (d, q) :: _ =>
    let s := advanceTo d s
    let s := dropDue (copyDue s)
    let q := (s.searches.find? (·.cmd.id == q.cmd.id)).getD q
    let (cause, key, layer, pos) := buildKey (tplAt d s) q.pcls q.desc q.bytes
    modSrch q.cmd.id (fun q => { q with stage := .walk (d + 12), cause := cause,
                                        key := putPhase q.prof.kb q.phase key, failAt := (layer, pos) }) s

/-- The walk's outcome takes the slow path (04 Table 4.11). -/
def slowPath (q : Srch) : Bool := [2, 3, 4, 5, 6].contains q.cause.toNat || (q.cause == kbDepth && !bitAt q.prof.kb 15)

/-- KB_CAUSE (04 R113). -/
def causeEvt (q : Srch) (s : State) : State :=
  postAt s.cclk 4 q.ch (BitVec.ofNat 18 (regF s 0x51304 17 0))
    { type := 0x10, source := BitVec.ofNat 18 q.ch,
      w1 := pack 64 [(q.cmd.p.tag.toNat, 63, 50), (srchProf q.cmd, 49, 43), (argF q.cmd 10 7, 42, 39), (q.cause.toNat, 38, 35),
        (q.failAt.1, 34, 31), (q.failAt.2, 30, 23)], w2 := q.desc } s

/-- A partition that the search names has been deleted or recreated with another width since the check (03 R72). -/
def partGone (s : State) (q : Srch) : Bool :=
  (q.prof.lk.zip q.prof.g).any fun x =>
    let w := cfgOf s (leadOf s q.ch) (lkPart x.1)
    !cfgOn w || cfgG w != x.2

/-- Hops of a cascaded search sent now; only a ring that serves has any (07 Table 7.2). -/
def hopsNow (s : State) : Nat := if s.ring.st == .formed || s.ring.st == .wrapped then s.ring.hops else 0

/-- D of a cascaded search sent now (07 R175). -/
def ringDelay (s : State) : Nat := nsToCclk s.part.grade (30 * hopsNow s)

/-- Members missing now (07 R183). -/
def missingNow (s : State) : Byte := BitVec.ofNat 8 (regF s 0x4C000 15 8) &&& ~~~s.ring.live

/-- What takes effect in CCLK `n` before its admissions and its key deliveries: the update units take their commands and the timed commits
due are made, so that the searches admitted in a commit CCLK evaluate the new negative, and a slow-path result carries the new stamp (06
R155, R160, Table 6.12). -/
def commitsIn (n : Nat) (c : Chn) (s : State) : State :=
  let s := pumpAll (advanceTo n s)
  commitDue (leadOf s c) ((chan s (leadOf s c)).pends.length) s

/-- The slow-path result of a search: its reply at its fixed time (04 R111, R112; 07 R175), with the stamp of the CCLK in which the key
image is delivered (06 R160). It holds its channel awake as an admitted search would (11 R274). It is never sent round the ring, and no
result of it is partial (05 R118, 07 R175). -/
def slowReply (q : Srch) (s : State) : State :=
  let d := s.cclk + 45 + (if q.org.isSome then ringDelay s else 0)
  let n := d + 2 + (if profSe q.prof.ctl then 16 else 0)
  let q := { q with stamp := (chan s (leadOf s q.ch)).stamp }
  let v := if profSe q.prof.ctl then some (verdictWord (noStream 11) 0 q.tChk) else none
  srchReply q (missAll s q false) none v n (modPwr q.ch (fun p => { p with awake := max p.awake d }) s)

/-- KEY_BUILD: the key image and cause code are ready (04 R89, R110-R114). -/
def keyBuildRun (c : Chn) (s : State) : State :=
  match dueIn s c (fun st => match st with | .walk d => some d | _ => none) with
  | [] => s
  | (d, q) :: _ =>
    let s := advanceTo d s
    let n := q.cause.toNat
    let s := if 1 ≤ n && n ≤ 6 then bump (0x51200 + q.ch.val * 0x40 + n * 4) s else s
    let s := if (n == 2 || n == 3) && bitAt q.prof.kb 14 then causeEvt q s else s
    if slowPath q then slowReply q (commitsIn d c s) else modSrch q.cmd.id (fun q => { q with stage := .offer d }) s

/-! ### Cascaded searches leave the origin (07 R173, R180) -/

/-- First byte and length of the key span of a profile (07 Table 7.3). -/
def spanOf (p : Prof) : Nat × Nat :=
  let lo := (p.lk.map lkOff).foldl min 80
  let hi := (p.lk.zip p.g).foldl (fun m x => max m (lkOff x.1 + 10 * x.2)) 0
  (lo, cdiv (hi - lo) 4 * 4)

/-- Byte `i` of a key image, byte 0 its lowest 8 bits (03 R67). -/
def keyByte (k : Key) (i : Nat) : Byte := BitVec.ofNat 8 (k.toNat >>> (8 * i))

/-- Bytes of a key span; bytes past the span's end are padding. -/
def spanBytes (p : Prof) (k : Key) : List Byte :=
  let (lo, n) := spanOf p
  let hi := (p.lk.zip p.g).foldl (fun m x => max m (lkOff x.1 + 10 * x.2)) 0
  (List.range n).map fun i => if lo + i < hi then keyByte k (lo + i) else 0

/-- The direction in which a cell for the ring `east` leaves: a wrapped port turns it back onto the other ring (07 R181). -/
def outDir (s : State) (east : Bool) : Bool := if (if east then s.ring.east.wrapped else s.ring.west.wrapped) then !east else east

/-- The origin sends a search round the ring in CCLK f, its slot, stamp and direction fixed (07 R173, R175, R178, R180, R183). A search
whose group is shut or whose partition is gone by then is refused and sends no cell (R177). With H = 0 no cell leaves and none is counted.
Log 64 (DEDUCED). -/
def launch (f : Nat) (q : Srch) (s : State) : State :=
  match q.org with
  | none => s
  | some o =>
    if shut s q.ch then refuseSrch q stQuiesced 0 s
    else if partGone s q then refuseSrch q stBadArg 0 s
    else
    let d := ringDelay s
    let slot := (freeSlot s).getD 0
    let stamp := if q.cmd.op == 0x12 then q.stampIn else (chan s (leadOf s q.ch)).stamp
    let east := s.ring.eastNext
    let o' : CascO := { o with slot := slot, f := f, d := d, missing := missingNow s, east := east }
    let s := modSrch q.cmd.id (fun q => { q with org := some o', stamp := stamp, stage := .offer (f + d) }) s
    if hopsNow s = 0 then s
    else
      let key : KeyCell := ⟨s.dev.devId, slot, BitVec.ofNat 7 (srchProf q.cmd), BitVec.ofNat 2 (q.prof.lk.length - 1), stamp,
        spanBytes q.prof q.key⟩
      let res : ResultCell := ⟨s.dev.devId, slot, 0, q.prof.lk.map fun l => ⟨0, List.replicate (lkAd l) 0⟩, none⟩
      let out := outDir s east
      let s := pumpFrames s
      addStat 0x4C030 1 { s with ring := { s.ring with eastNext := !east, fresh := s.ring.fresh ++ [(out, .key key), (out, .result res)] } }

/-! ### Admission (01 R20, R21; 03 R72; 06 R160, R161; 11 R265-R275) -/

/-- Which negative a lookup of a search with stamp `v` evaluates, in CCLK `n`; none: stale (06 R160). -/
def negFor (s : State) (l : Chn) (v : Byte) (p n : Nat) : Option Bool :=
  let k := chan s l
  let x := partOf s l p
  if v == k.stamp then some x.live
  else match mget k.stamps v.toNat with
    | none => none
    | some r =>
      let since := fun (c : Option Nat) => match c with | some c => decide (c ≥ r.stop) | none => false
      if !since x.last then some x.live
      else if since x.prev then none
      else if n < x.fixEnd then some (!x.live) else none

/-- The negatives of a search's lookups at its admission in CCLK `n` (06 R160, 07 R180); none: stale. -/
def negsOf (s : State) (q : Srch) (n : Nat) : Option (List Bool) :=
  let l := leadOf s q.ch
  let ps := q.prof.lk.map lkPart
  let all := fun (f : Nat → Option Bool) => ps.mapM f
  match q.mem with
  | some _ =>
    all fun p =>
      if q.stampIn == (chan s l).stamp + 1 then
        (if (partOf s l p).st == .pend then some (!(partOf s l p).live) else none)
      else negFor s l q.stampIn p n
  | none => if q.cmd.op == 0x12 then all fun p => negFor s l q.stampIn p n else all fun p => some (partOf s l p).live

/-- The search takes the admission slot of CCLK `n`: refused under 03 R72 or 06 R161, or admitted. -/
def enter (n : Nat) (q : Srch) (s : State) : State :=
  let l := leadOf s q.ch
  let st := stageOf s q.ch
  let s := (if st == q.ch && lockMode s q.ch != 1 && lockMode s q.ch != 2 then [q.ch] else groupOf s q.ch).foldl
    (fun s m => modChan m (fun k => { k with lastAdm := some n }) s) s
  if partGone s q then refuseSrch q stBadArg 0 s
  else match negsOf s q n with
    | none => refuseStale q (chan s l).stamp l (bump (chAddr l 0x5118) s)
    | some negs =>
      let stamp := if q.org.isSome then q.stamp else if q.mem.isSome || q.cmd.op == 0x12 then q.stampIn else (chan s l).stamp
      let s := modPwr l (fun p => { p with idle := 0, since := n }) s
      let s := if q.cls = 0 then modWin st (fun w => { w with gAdm := w.gAdm + 1 }) s else s
      modSrch q.cmd.id (fun q => { q with stage := .pipe n, negs := negs, stamp := stamp,
                                          cfg := q.prof.lk.map fun x => cfgOf s l (lkPart x), blks := blocksOf s q }) s

/-- Refuses a search under the thermal limit (11 R271). -/
def refuseHot (q : Srch) (s : State) : State := refuseSrch q stThermal 0 (bump (chAddr (stageOf s q.ch) 0x6048) s)

/-- Refuses a search under 11 R266 or R275. -/
def refuseBudget (q : Srch) (s : State) : State := refuseSrch q stBudget 0 (bump (chAddr (stageOf s q.ch) 0x6040) s)

/-- Refuses a G-class search under 01 R20. -/
def refuseSlot (q : Srch) (s : State) : State := refuseSrch q stBudget 0 (bump (chAddr (stageOf s q.ch) 0x6038) s)

/-- The level is HARD and the window's G-class searches of stage `c`, those admitted before HARD included, have reached `g_floor` (11 R271).
Log 116 (DESIGN CHOICE). -/
def floorDone (s : State) (c : Chn) : Bool :=
  s.dev.level == 2 && decide ((winOf s c).gAdm ≥ regF s (chAddr (leadOf s c) 0x600C) 10 0)

/-- Ranks the ranked G-class searches of CCLK `n`: `slot` tells whether the slot is free (01 R20). -/
def ruleG (n : Nat) (slot held : Bool) : List Srch → State → State
  | [], s => s
  | q :: t, s =>
    if floorDone s (stageOf s q.ch) then ruleG n slot held t (refuseHot q s)
    else if slot then ruleG n false held t (enter n q s)
    else if !held then ruleG n false true t (modSrch q.cmd.id (fun q => { q with stage := .gHeld }) s)
    else ruleG n false true t (refuseSlot q s)

/-- Hold limit of a class in CCLK, by XPO_HOLD as it stands (11 R266). Log 52 (DEDUCED). -/
def holdLimit (s : State) (cls : BitVec 2) : Nat :=
  let ns := if cls = 1 then regF s 0x20010 9 0 else regF s 0x20010 29 16
  match s.part.grade with
  | .g12 => ns * 5 / 4
  | .g10 => ns

/-- Held searches of a stage, in the order in which they entered its hold queue (11 R265). -/
def heldOf (s : State) (c : Chn) : List Srch :=
  (s.searches.filter fun q => stageOf s q.ch == c && (match q.stage with | .hold _ => true | _ => false)).mergeSort
    fun a b => a.heldSeq ≤ b.heldSeq

/-- Offered searches enter the hold queue of 512, or are refused (11 R265, R266). -/
def enterHold (n : Nat) : List Srch → State → State
  | [], s => s
  | q :: t, s =>
    enterHold n t (if (heldOf s (stageOf s q.ch)).length ≥ 512 then refuseBudget q s
      else
        let seq := ((heldOf s (stageOf s q.ch)).getLast?.map (·.heldSeq)).getD 0 + 1
        modSrch q.cmd.id (fun q => { q with stage := .hold n, heldSeq := seq }) s)

/-- Held searches whose limit is reached in CCLK `n` are refused; the limit counts only while the channel is ACTIVE (11 R266). -/
def expireHold (n : Nat) (c : Chn) (s : State) : State :=
  if !isActive s c then s
  else (heldOf s c).foldl (fun s q => match q.stage with
    | .hold since => if since + holdLimit s q.cls ≤ n then refuseBudget q s else s
    | _ => s) s

/-- Ranks newly offered searches by source from the stage's rotation, and by order of check within a source (01 R444). -/
def rankOffers (s : State) (c : Chn) (l : List Srch) : List Srch :=
  let rot := (chan s c).rotAdm
  l.mergeSort fun a b =>
    let x := rotRank rot (srchSrc a)
    let y := rotRank rot (srchSrc b)
    decide (x < y) || (x == y && decide (a.cmd.id ≤ b.cmd.id))

/-- A search left to class A or B in CCLK `n`, with the balance `bal` at its start (11 R265). Log 52 (DEDUCED). -/
def ruleAB (n : Nat) (bal : Int) (c : Chn) (offers : List Srch) (s : State) : State :=
  let held := heldOf s c
  let first := fun (cls : BitVec 2) => (held.find? (·.cls == cls)).orElse fun _ => offers.find? (·.cls == cls)
  match first 1 with
  | some q => if bal ≥ 0 then enter n q s else s
  | none => match first 2 with
    | some q => if bal ≥ (regF s 0x2000C 23 0 : Int) then enter n q s else s
    | none => s

/-- The search is still offered in stage `c`. -/
def stillOffered (s : State) (q : Srch) : Bool :=
  s.searches.any fun x => x.cmd.id == q.cmd.id && (match x.stage with | .offer _ => true | _ => false)

/-- What the admission stage of `c` rules on in CCLK `n` with the searches newly offered in it, ranked. Log 52 (DEDUCED). -/
def ruleIn (n : Nat) (c : Chn) (offers : List Srch) (s : State) : State :=
  let bal := startBal s
  let gHeld := s.searches.filter fun q => stageOf s q.ch == c && (match q.stage with | .gHeld => true | _ => false)
  let ab := offers.filter (·.cls != 0)
  let g := offers.filter (·.cls == 0)
  if shut s c || decide (n < (chan s (leadOf s c)).openFrom) then (gHeld ++ heldOf s c ++ offers).foldl (fun s q => refuseSrch q stQuiesced 0 s) s
  else if s.dev.level == 2 then
    let s := (heldOf s c ++ ab).foldl (fun s q => refuseHot q s) s
    if isActive s c then ruleG n ((chan s c).bubbleAt != some n) false (gHeld ++ g) s
    else g.foldl (fun s q => refuseBudget q (demandWake q s)) s
  else if !isActive s c then
    let s := offers.foldl (fun s q => demandWake q s) s
    enterHold n ab (g.foldl (fun s q => refuseBudget q s) s)
  else
    let slot := (chan s c).bubbleAt != some n
    let s := if (gHeld ++ g).isEmpty then (if slot then ruleAB n bal c ab s else s) else ruleG n slot false (gHeld ++ g) s
    expireHold n c (enterHold n (ab.filter (stillOffered s)) s)

/-- Searches of stage `c` offered, each with the CCLK it is offered in. -/
def offersOf (s : State) (c : Chn) : List (Nat × Srch) :=
  s.searches.filterMap fun q => match q.stage with
    | .offer d => if q.given && stageOf s q.ch == c then some (d, q) else none
    | _ => none

/-- A wake of the group due by CCLK `n` is complete. Log 53 (DEDUCED). -/
def wakeBy (n : Nat) (c : Chn) (s : State) : State :=
  match (pwrOf s c).waking with
  | some (_, due, _) => if due ≤ n then finishWake c s else s
  | none => s

/-- Rules on CCLK `n` in the stage `c`, after sending the cascaded searches whose CCLK f it is. -/
def admitIn (n : Nat) (c : Chn) (s : State) : State :=
  let s := wakeBy n c (settleXpo (n - 1) (commitsIn n c s))
  let s := ((offersOf s c).filter fun x => decide (x.1 ≤ n) && (match x.2.org with | some o => o.f == 0 | none => false)).foldl
    (fun s x => launch n x.2 s) s
  let now := rankOffers s c (((offersOf s c).filter fun x => decide (x.1 ≤ n)).map (·.2))
  let rot := if now.any (fun q => srchSrc q != srchSrc (now.headD q)) then
      (match now with | q :: _ => (srchSrc q + 1) % 11 | [] => 0) else (chan s c).rotAdm
  ruleIn n c now (modChan c (fun k => { k with rotAdm := rot, admNext := n + 1 }) s)

/-- The next CCLK in which stage `c` has something to rule on. -/
def nextRule (s : State) (c : Chn) : Option Nat :=
  let n := max s.cclk (chan s c).admNext
  let waits := s.searches.any fun q => stageOf s q.ch == c && (match q.stage with | .gHeld | .hold _ => true | _ => false)
  if waits then some n else ((offersOf s c).map (·.1)).min?.map (max n)

/-- SEARCH_ADMISSION: the stage rules on the next CCLK in which it holds or is offered a search (01 R20). -/
def searchAdmissionRun (ch : Chn) (s : State) : State :=
  let c := stageOf s ch
  let s := giveTurns c (fun s => nextRule s c) s
  match nextRule s c with
  | none => s
  | some n => admitIn n c s

/-- The first CCLK in which a hold limit ends in stage `c`, and in which it has not ruled yet. -/
def nextExpiry (s : State) (c : Chn) : Option Nat :=
  ((heldOf s c).filterMap fun q => match q.stage with
    | .hold since => some (since + holdLimit s q.cls)
    | _ => none).min?.map fun x => max x (max s.cclk (chan s c).admNext)

/-- HOLD_LIMIT_EXPIRY: the first hold limit to end in the stage; the search is refused unless it is admitted in that CCLK (11 R266). -/
def holdLimitRun (ch : Chn) (s : State) : State :=
  let c := stageOf s ch
  if !isActive s c then s
  else match nextExpiry s c with
    | none => s
    | some n => admitIn n c (giveTurns c (fun _ => some n) s)

/-! ### Delivery (02 R47, R57; 03 R80, R81; 05 R122-R125) -/

/-- Statistics of one lookup in channel `m` (02 Table 2.9). -/
def countLk (m : Chn) (count : Nat) (s : State) : State :=
  let s := addStat (chAddr m 0x2010) 1 s
  let s := if count ≥ 1 then addStat (chAddr m 0x2018) 1 s else s
  if count ≥ 2 then addStat (chAddr m 0x2020) 1 s else s

/-- TWIN_MISMATCH of lookup `j` (03 R81). -/
def twinEvt (q : Srch) (j : Nat) (r : LkRes) (x : Nat × Nat × Word) (s : State) : State :=
  let l := leadOf s q.ch
  let s := bump (chAddr l 0x3008) s
  postAt s.cclk 5 l (devQ s)
    { type := 0x11, source := BitVec.ofNat 18 l,
      w1 := pack 64 [(q.cmd.p.tag.toNat, 63, 50), (srchProf q.cmd, 49, 43), (j, 42, 41), (r.count, 40, 32), (x.2.1, 31, 23), (r.entry, 19, 0)],
      w2 := pack 64 [(r.entry, 63, 44), (x.1, 43, 24)], w3 := resultWord q.cause r, w4 := x.2.2 } s

/-- What the delivery of one lookup counts and posts. -/
def noteLk (q : Srch) (j : Nat) (r : LkRes) (s : State) : State :=
  let s := if lockMode s q.ch == 1 then
      let p := primaryOf s q.ch
      let o := if p == leadOf s q.ch then chn (leadOf s q.ch + 1) else leadOf s q.ch
      countLk o (match r.sec with | some x => x.2.1 | none => r.count) (countLk p r.count s)
    else countLk q.ch r.count s
  match r.sec with | some x => twinEvt q j r x s | none => s

/-- Counts the poison of the winners that this device supplied: a priority each, associated data once per search in each channel that
supplied it (05 R123, R125). Log 101 (DEDUCED). -/
def notePoison (rs : List LkRes) (s : State) : State :=
  let rs := rs.filter fun r => r.hit && r.dev == s.dev.devId
  let s := rs.foldl (fun s r => if r.prioPois then bump (chAddr r.home.toNat 0x4018) s else s) s
  let bad := (rs.filterMap fun r => if r.adPois.any id then some r.home else none).eraseDups
  bad.foldl (fun s m => bump (chAddr m.toNat 0x4010) s) s

/-- The stream handle of a search from the outcome of its lookup `se_lookup`: none on a miss, `inr` when its word is poisoned (03 R69,
05 R124). -/
def handleOf (q : Srch) (rs : List LkRes) : Option (Nat ⊕ Unit) :=
  let r := nth rs (profSeLk q.prof.ctl) {}
  let w := fld q.prof.se 8 6
  let lsb := fld q.prof.se 5 0
  if !r.hit then none else if nth r.adPois w false then some (.inr ()) else some (.inl (fld (nth r.ad w 0) (lsb + 17) lsb))

/-- The results of a search of this part are complete in CCLK `n`: the stream lane starts, or the reply is ready (01 R19, 09 R208). -/
def resultsDone (q : Srch) (rs : List LkRes) (rep : Option Word) (n : Nat) (s : State) : State :=
  if profSe q.prof.ctl then
    let (h, v) := match handleOf q rs with
      | none => (none, some (verdictWord (noStream 11) 0 q.tChk))
      | some (.inr _) => (none, some (verdictWord (noStream 12) 0 q.tChk))
      | some (.inl h) => (some h, none)
    modSrch q.cmd.id (fun q => { q with stage := .lane n, cmp := some rs, handle := h, verdict := v }) s
  else srchReply q rs rep none (n + 2) s

/-- Partial results carry `partial` (07 R183). -/
def markPart (q : Srch) (rs : List LkRes) : List LkRes :=
  match q.org with
  | some o => if o.missing != 0 then rs.map fun r => { r with part := true } else rs
  | none => rs

/-- The search waits for a ring cell after its own results: as a member, or as an origin with hops. -/
def waitsCell (q : Srch) : Bool := q.mem.isSome || (match q.org with | some o => o.d != 0 | none => false)

/-- SEARCH_RESULT_DELIVERY: the results of the search admitted first are delivered, 45 CCLK after its admission (02 R47). -/
def resultDeliveryRun (ch : Chn) (s : State) : State :=
  match dueIn s ch (fun st => match st with | .pipe a => some a | _ => none) with
  | [] => s
  | (adm, q) :: _ =>
    let s := settlePipe (adm + 45) (advanceTo (adm + 45) s)
    let q := (s.searches.find? (·.cmd.id == q.cmd.id)).getD q
    let rs := markPart q (q.cmp.getD [])
    let s := (rs.zipIdx).foldl (fun s x => noteLk q x.2 x.1 s) s
    let n := adm + 45
    if waitsCell q then modSrch q.cmd.id (fun q => { q with stage := .cell n, cmp := some rs }) s
    else resultsDone q rs (poisonReport rs) n (notePoison rs s)

/-- STREAM_ENGINE_VERDICT: the verdict word of a lane is ready 16 CCLK after the results (09 R208). -/
def streamVerdictRun (ch : Chn) (s : State) : State :=
  match dueIn s ch (fun st => match st with | .lane d => some d | _ => none) with
  | [] => s
  | (d, q) :: _ =>
    let s := seServe (advanceTo (d + 16) (seServe (advanceTo (d + 1) s)))
    let q := (s.searches.find? (·.cmd.id == q.cmd.id)).getD q
    let rs := q.cmp.getD []
    srchReply q rs (poisonReport rs) q.verdict (d + 18) s

end Sys2Proof.Machine
end

