-- ==== Sys2Proof/Machine/Integrity.lean ====
section
/-! DEFINITION. Scrubbing, heals, contact-sheet rebuilds, proof passes and repair (13 R318-R339; 02 R52). -/

namespace Sys2Proof.Machine

/-! ### Background work (11 R282) -/

/-- The slack that background work above its floor needs: the balance, an empty hold queue, and no HARD level (11 R271, R282). -/
def bgSlack (s : State) (m : Chn) : Bool :=
  s.dev.level != 2 && (heldOf s (stageOf s m)).isEmpty && decide (startBal s ≥ (regF s 0x2000C 23 0 : Int))

/-- Background work of which channel `m` has done `count` this window may run; floor work wakes a group in SAFELIGHT (11 R274, R282). -/
def bgStart (m : Chn) (count : Window → Nat) (floor : Nat) (s : State) : Option State :=
  let s := settleXpo (s.cclk - 1) s
  let under := decide (count (winOf s m) < floor)
  if isActive s m then (if under || bgSlack s m then some s else none)
  else if under && (pwrOf s m).st == .safelight && (pwrOf s m).entering.isNone then some (wakeFloor m s) else none

/-- Position `pos` of channel `m` compares for a lookup in CCLK `n`. -/
def posCompares (s : State) (m : Chn) (pos n : Nat) : Bool :=
  s.searches.any fun q => (match q.stage with | .pipe adm => adm + 6 == n | _ => false) &&
    (q.acts.getD []).any fun a => a % 64 == pos && chn (a / 64) == m

/-- A row operation of background work in the first CCLK from now, of the next few, that is no compare cycle of the position, when it may
run in that CCLK: searches admitted by now compare within 6 (11 R282; 13 R321). Log 76 (DEDUCED). -/
def bgCycle (m : Chn) (pos : Nat) (count : Window → Nat) (floor : Nat) : Nat → State → Option State
  | 0, _ => none
  | k + 1, s =>
    let s := settlePipe s.cclk s
    if posCompares s m pos s.cclk then bgCycle m pos count floor k (advance 1 s) else bgStart m count floor s

/-! ### Scrubbing (13 R321-R323) -/

/-- A physical block holds rows: its position belongs to a partition, or rows have been written in it. -/
def blockHolds (k : Chan) (b : Nat) : Bool :=
  match posServed k b with
  | none => false
  | some p => (mget k.owner p).isSome || k.rows.any fun r => r.1 / 8192 == b

/-- The blocks that the scrubber visits, in its order: those that serve a position and hold rows. -/
def scrubBlocks (k : Chan) : List Nat := (List.range 66).filter (blockHolds k)

/-- The row of the next visit: block and row, and whether the scan restarts with it. -/
def scrubNext (k : Chan) : Option (Nat × Nat × Bool) :=
  let bs := scrubBlocks k
  match bs.find? fun b => decide (b ≥ k.scrubAt / 8192) with
  | some b => some (b, if b = k.scrubAt / 8192 then k.scrubAt % 8192 else 0, false)
  | none => bs.head?.map fun b => (b, 0, true)

/-- A scrub read of a word of a side memory, which 13 R316 names `key`: a correctable word is rewritten corrected at once (13 R321). -/
def scrubWord (mem key loc heal : Nat) (word : Option SWord) (put : SWord → Chan → Chan) (m : Chn) (s : State) : State :=
  match word with
  | none => s
  | some w =>
    let (_, h, mask) := decodeWord w
    let s := noteRead mem key loc h mask s
    if h = .correctable then cancelHeal heal (modChan m (put (healWord w)) s) else s

/-- Partition, entry, segment and validity of row `r` of a position; the row of a position without a partition has a locator that the
spec leaves open. -/
def rowTarget (s : State) (m : Chn) (pos r : Nat) : Option (Nat × Nat × Nat × Bool) :=
  match mget (chan s m).owner pos with
  | none => none
  | some (p, lb) =>
    let w := cfgOf s m p
    let e := lb * perBlock w + r / cfgG w
    let b := servePhys (chan s m) pos
    some (p, e, r % cfgG w, rowValid (decodeRow (rowAt (chan s m) b (rowOf w e))).1)

/-- The same, with a free locator for a row of a position without a partition. -/
def rowNamed (m : Chn) (pos r : Nat) (s : State) : (Nat × Nat × Nat × Bool) × State :=
  match rowTarget s m pos r with
  | some x => (x, s)
  | none => let (x, s) := draw s; ((fld x 29 24, fld x 23 4, fld x 3 0, false), s)

/-- A scrub read of row `r` of block `b` that serves position `pos`. -/
def scrubRow (m : Chn) (b pos r : Nat) (s : State) : State :=
  let ((p, e, j, v), s) := rowNamed m pos r s
  let i := adIdx pos r
  let s := scrubWord 0 (keyAd m i) (entLoc m p e j) (healAd m i) (adWord (chan s m) i) (fun x k => { k with adm := mset k.adm i x }) m s
  let s := scrubWord 1 (keyHalf m i) (entLoc m p e j) (healPrio m i) (prioWord (chan s m) i) (fun x k => { k with prio := mset k.prio (i / 4) x }) m s
  let (_, hd, hm) := decodeRow (rowAt (chan s m) b r)
  let s := noteRow m p e j b v hd hm s
  if (hd = .correctable || hm = .correctable) && !(chan s m).corr.any (fun x => x.blk == b && x.row == r) then
    modChan m (fun k => { k with corr := k.corr ++ [⟨b, r, s.cclk⟩] }) s
  else s

/-- A full scrub cycle is complete. Log 76 (DEDUCED). -/
def scrubCycle (m : Chn) (s : State) : State :=
  let a := 0x81040 + m.val * 4
  setReg a (getReg s a + 1) s

/-- SCRUB_READ: the scrubber's next visit in a channel, at most one row per CCLK, in a CCLK in which the block does not compare (13 R321).
Log 76 (DEDUCED). -/
def scrubReadRun (m : Chn) (s : State) : State :=
  match scrubNext (chan s m) with
  | none => s
  | some (b, r, again) =>
    let pos := (posServed (chan s m) b).getD 0
    match bgCycle m pos (·.scrub) (regF s 0x2002C 6 0) 8 (advance 1 s) with
    | none => s
    | some s =>
      let s := scrubRow m b pos r (rowDebit (if again then scrubCycle m s else s))
      let last := r == 8191 && (scrubBlocks (chan s m)).getLast? == some b
      let s := modChan m (fun k => { k with scrubAt := if last then 0 else b * 8192 + r + 1 }) s
      let s := addStat (0x81000 + m.val * 8) 1 (modWin m (fun w => { w with scrub := w.scrub + 1 }) s)
      if last then scrubCycle m s else s

/-! ### Heals (13 R318) -/

/-- HEAL_WRITE: the word at the head of the heal queue is rewritten in its correctable bytes; one found poisoned is not (13 R318). -/
def healWriteRun (s : State) : State :=
  match s.healQ with
  | [] => s
  | k :: t =>
    let fix := fun (bad : List Nat) (m : Sram) (i : Nat) => match under bad m i with
      | none => m
      | some w => if (decodeWord w).2.1 = .correctable then mset m i (healWord w) else m
    let c := chn (k / 0x1000000 - 1)
    let i := k % 0x1000000
    if k < 0x1000000 then
      if asleep s k then s else { s with healQ := t, sram := fix s.vbad s.sram k }
    else
      let s := { s with healQ := t }
      if k < 0x5000000 then modChan c (fun x => { x with adm := fix x.admBad x.adm i }) s
      else if k < 0x9000000 then modChan c (fun x => { x with prio := fix x.prioBad x.prio i }) s
      else modChan c (fun x => { x with sheet := fix x.sheetBad x.sheet i }) s

/-! ### Contact sheets (02 R52) -/

/-- The words of the counters of physical block `b` recounted from its rows: every slice value that a valid entry matches. -/
def recountOf (s : State) (m : Chn) (b : Nat) : List (Nat × SWord) :=
  let k := chan s m
  match (posServed k b).bind fun p => mget k.owner p with
  | none => []
  | some (p, _) =>
    let w := cfgOf s m p
    if !cfgSlice w then []
    else
      let es := (List.range (perBlock w)).filter fun e => rowValid (rowAt k b (e * cfgG w))
      let vs := es.map fun e => let x := planesIn k w b e; sliceVals w x.1 x.2
      let n := fun v => (vs.filter (·.contains v)).length
      (List.range 64).filterMap fun i =>
        let w : Word := pack 64 [(n (4 * i + 3), 63, 48), (n (4 * i + 2), 47, 32), (n (4 * i + 1), 31, 16), (n (4 * i), 15, 0)]
        if w = 0 then none else some (b * 64 + i, encode w)

/-- Replaces the counters of block `b`. -/
def setSheet (b : Nat) (l : List (Nat × SWord)) (k : Chan) : Chan :=
  { k with sheet := l.foldl (fun m x => mset m x.1 x.2) (k.sheet.filter fun x => x.1 / 64 != b)
           sheetBad := k.sheetBad.filter fun x => x / 64 != b }

/-- The counter words of block `b` have been written: those that were poisoned are armed again, and their heals are cancelled (13 R316,
R318). -/
def rearmSheet (m : Chn) (b : Nat) (s : State) : State :=
  let out := fun (lo : Nat) (l : List Nat) => l.filter fun k => !(decide (lo ≤ k) && decide (k < lo + 64))
  { s with poisonSeen := out (poisonKey 10 (keyHalf m (b * 256))) s.poisonSeen, healQ := out (healSheet m (b * 256)) s.healQ }

/-- The counter words of block `b` are read for a copy, with what that counts and reports (13 R315, R316; 02 R52). -/
def noteSheets (m : Chn) (b : Nat) (s : State) : State :=
  (((chan s m).sheet.map (·.1) ++ (chan s m).sheetBad).eraseDups.filter fun x => x / 64 == b).foldl (fun s x => noteSheet m (4 * x) s) s

/-- Debits of `n` row operations, one every `every` CCLK from the next. -/
def rowDebits (n every : Nat) (s : State) : State :=
  { s with xpo := { s.xpo with debits := s.xpo.debits ++ (List.range n).map fun i => (s.cclk + 1 + i * every, s.part.rowEu.toNat) } }

/-- Nothing is under way that could end the slack of channel `m`: no search, no debit to come, and a refill that outweighs one row operation
a CCLK (11 R263, R282). -/
def steadySlack (s : State) (m : Chn) : Bool :=
  isActive s m && bgSlack s m && s.searches.isEmpty && s.xpo.debits.isEmpty && decide (s.part.rowEu.toNat ≤ refillEu s) &&
    decide ((regF s 0x2000C 23 0 : Int) + s.part.rowEu.toNat ≤ burstEu s)

/-- The clock moves on until channel `m` may do background work of which it has done `count` and position `pos` does not compare; the flag
tells whether it may (11 R282). -/
def bgAwait (m : Chn) (pos : Nat) (count : Window → Nat) (floor : Nat) : Nat → State → Bool × State
  | 0, s => (false, s)
  | k + 1, s =>
    let s := settlePipe s.cclk s
    if posCompares s m pos s.cclk then bgAwait m pos count floor k (advance 1 s)
    else match bgStart m count floor s with
    | some s => (true, s)
    | none =>
      if !((pwrOf s m).st == .active || (pwrOf s m).st == .safelight) then (false, s)
      else
        let s := settleXpo s.cclk s
        let need := (regF s 0x2000C 23 0 : Int) - s.xpo.bal
        let window := (s.cclk / 1024 + 1) * 1024
        let slack := if need > 0 && refillEu s != 0 then s.cclk + cdiv need.toNat (refillEu s) else window
        bgAwait m pos count floor k (advanceTo (min window slack) s)

/-- The rows of the block at the head of the rebuilds that are still to be read, each in an idle block cycle of a CCLK of its own, in
slack or at the floor (02 R52, 11 R282). -/
def rebuildRows (m : Chn) (pos floor : Nat) : Nat → State → State
  | 0, s => s
  | k + 1, s =>
    if (chan s m).rebuildRow ≥ 8192 then s
    else
      match bgAwait m pos (·.rebuild) floor 4096 (advance 1 s) with
      | (false, s) => s
      | (true, s) =>
        let s := rowDebit s
        rebuildRows m pos floor k
          (modChan m (fun k => { k with rebuildRow := k.rebuildRow + 1 }) (modWin m (fun w => { w with rebuild := w.rebuild + 1 }) s))

/-- All 8,192 rows read in successive CCLKs, where the slack cannot end meanwhile. -/
def rebuildSteady (m : Chn) (s : State) : State :=
  let s := advance 8192 (rowDebits 8192 1 s)
  modChan m (fun k => { k with rebuildRow := 8192 }) (modWin m (fun w => { w with rebuild := w.rebuild + s.cclk % 1024 + 1 }) s)

/-- SHEET_REBUILD: a block is recounted from its 8,192 rows, and its counters rewritten (02 R52, 11 R282). Where the channel leaves ACTIVE
and SAFELIGHT meanwhile, the rebuild pauses (11 R274). Log 81 (DEDUCED). -/
def sheetRebuildRun (m : Chn) (s : State) : State :=
  match (chan s m).rebuild with
  | [] => s
  | b :: t =>
    let floor := max 1 (regF s 0x20028 31 24)
    let s := if steadySlack s m && (chan s m).rebuildRow == 0 then rebuildSteady m s
      else rebuildRows m ((posServed (chan s m) b).getD 0) floor 8192 s
    if (chan s m).rebuildRow < 8192 then s
    else
      let s := flushDecs m s.cclk (settlePipe s.cclk s)
      let l := recountOf s m b
      modChan m (fun k =>
        let k := setSheet b l { k with pendDec := k.pendDec.filter fun d => d.2.1 != b }
        let asked := k.rebuildAsked.filter (· != b)
        { k with rebuild := t, rebuildRow := 0, forced := k.forced.filter (· != b), rebuildBusy := k.rebuildBusy && !asked.isEmpty
                 rebuildAsked := asked })
        (rearmSheet m b s)

/-- REBUILD: a write of 1 to `rebuild` of CH_ARRAY_CTL; while a rebuild runs it has no further effect (02 R52, R58). Log 81 (DEDUCED). -/
def rebuildRun (m : Chn) (s : State) : State :=
  if (chan s m).rebuildBusy then s
  else modChan m (fun k =>
    let bs := ((List.range 64).map (servePhys k)).eraseDups
    { k with rebuildBusy := true, rebuildRow := 0, rebuild := bs, rebuildAsked := bs }) s

/-! ### Records and events (13 R326, R327) -/

/-- A record about a block: the spec names no memory and no entry for it. Log 78 (DESIGN CHOICE). -/
def logBlock (kind detail : Nat) (m : Chn) (b : Nat) (s : State) : State :=
  let (v, s) := draw s
  logRec kind (fld v 35 32) detail (Config.blockId m b) (m.val * 2 ^ 30 + fld v 29 0) s

/-- PROOF_DONE (13 R327). The spec states a trim for a block that passed alone, and no block for a pass on SRAM pages: where it states
none the field is free. Log 119 (DESIGN CHOICE). -/
def proofDone (src : Nat) (block : Option Nat) (result : Nat) (trim : Option Nat) (skipped : Nat) (s : State) : State :=
  let (v, s) := if block.isSome && trim.isSome then (0, s) else draw s
  let block := block.getD (fld v 15 0)
  let trim := trim.getD (fld v 21 16)
  postDev 9 { type := 0x42, source := BitVec.ofNat 18 src,
              w1 := pack 64 [(block, 63, 48), (result, 47, 46), (trim, 45, 40), (skipped, 39, 32)] } s

/-- An image save whose completion posts an event (13 R339). -/
def saveFor (e : Event) (s : State) : State := { s with saves := s.saves ++ [{ who := .repair e }] }

/-- Remap entries of memory `n` in use (13 Table 13.14 PROOF_REMAP_USED). -/
def remapsUsed (s : State) (n : Nat) : Nat :=
  (s.remaps.filter (·.1 == n)).length + (s.remapRun.filter (·.mem == n)).length

/-! ### Proof passes (13 R328-R335) -/

/-- Block `b` of channel `m` holds rows that a pass must move: it serves a position that holds rows, and is no spare in reserve. -/
def passRows (k : Chan) (b : Nat) : Bool := b != proofSpare k && blockHolds k b

/-- Starts a pass on block `b`. -/
def startPass (cal : Bool) (m : Chn) (b : Nat) (s : State) : State :=
  modChan m (fun k =>
    let rows := passRows k b
    { k with proof := some { cal := cal, blk := b, phase := if rows then 1 else if cal then 4 else 3, op := 0, rows := rows },
             lastBlk := some b }) s

/-- An order of the blocks `l`: each in turn is the one of those left that the part's fixed choice takes. -/
def orderOf (pick : Nat → Nat) : Nat → List Nat → List Nat
  | 0, _ => []
  | k + 1, l => let b := l.getD (pick k % max 1 l.length) 0; b :: orderOf pick k (l.filter (· != b))

/-- The next block of the channel's rotation, which visits all 66 blocks in a fixed order that the spec leaves open (13 R328, R335). -/
def nextBlk (s : State) (m : Chn) : Nat := nth (orderOf (Config.rotation m) 66 (List.range 66)) ((chan s m).rot) 0

/-- Starts a pass on the next block of the rotation. -/
def startNext (cal : Bool) (m : Chn) (s : State) : State :=
  startPass cal m (nextBlk s m) (modChan m (fun k => { k with rot := (k.rot + 1) % 66 }) s)

/-- The channel's proof spare is in use (13 R329). -/
def spareBusy (k : Chan) : Bool := k.proof.isSome || k.heldBlk.isSome

/-- Pages that may be lent: Ralem code and data, and the mailbox (13 R329, R336). -/
def lendable (pg : Nat) : Bool := memId (pg * 512) == some 6 || memId (pg * 512) == some 7

/-- A page lies in a region whose pages are never lent, or the proof engine may not use it (13 R329, 17 R413). -/
def lendDenied (s : State) (pg : Nat) : Bool :=
  handlerPage s pg ||
  (List.range 192).any (fun i =>
    let lo := getReg s (0x31000 + i * 8)
    let hi := getReg s (0x31004 + i * 8)
    bitAt lo 3 && bitAt lo 0 && decide (fld lo 31 12 ≤ pg) && decide (pg ≤ fld hi 31 12)) ||
    !rgnAllows s 11 pg false || !rgnAllows s 11 pg true

/-- The regions deny the proof engine an access to a page: counted and recorded (12 R294, R295). -/
def noteProofDenied (pgs : List Nat) (s : State) : State :=
  match pgs.find? fun p => !rgnAllows s 11 p false || !rgnAllows s 11 p true with
  | some p => noteDenied 11 (p * 512) (rgnAllows s 11 p false) s
  | none => s

/-- PROOF_START with `sram` = 1 (13 R328, R329; 12 R295). -/
def proofSramRun (c : Cmd) (s : State) : State :=
  let w := payW c 0
  let a := fld w 51 32
  let b := fld w 19 0
  let pgs := (List.range (min 513 (b + 1 - a))).map (a + ·)
  match firstBad [(payN c != 1, stBadLen),
      (argF c 22 0 != 0 || fld w 63 52 != 0 || fld w 31 20 != 0 || decide (b < a) || decide (b > a + 512) ||
        pgs.any (!lendable ·), stBadArg),
      (pgs.any (lendDenied s), stDenied), (s.sramProof.isSome, stFull)] with
  | some st => refuse c st (if st = stDenied then noteProofDenied pgs s else s)
  | none => reply c stOk 0 [] { s with sramProof := some { first := a, last := b, page := a } }

/-- The block that an entry lies in, and its channel (13 Table 13.12). -/
def entryBlk (s : State) (l : Chn) (p e : Nat) : Chn × Nat :=
  let b := e / perBlock (cfgOf s l p)
  let m := homeOf s l p b
  (m, (posOf s m p b).getD 0)

/-- The entry that a payload names is none of the group (13 R329). -/
def entryBad (s : State) (l : Chn) (w : Word) : Bool :=
  !isLead s l || !cfgOn (cfgOf s l (fld w 25 20)) || decide (fld w 19 0 ≥ cfgEntries (cfgOf s l (fld w 25 20)))

/-- The proof spare of channel `m` is in use, or an SRAM pass runs (13 R329). -/
def proofFull (s : State) (m : Chn) : Bool := spareBusy (chan s m) || s.sramProof.isSome

/-- PROOF_START and CAL_START on a block (13 R328, R329, R334). -/
def proofBlockRun (cal : Bool) (c : Cmd) (s : State) : State :=
  let l := chn (argF c 7 6)
  let sel := argF c 5 5 == 1
  let w := payW c 0
  let (m, pos) := if sel then entryBlk s l (fld w 25 20) (fld w 19 0) else (l, 0)
  let b := if sel then servePhys (chan s m) pos else nextBlk s m
  match firstBad [(payN c != (if sel then 1 else 0), stBadLen),
      (argF c 22 8 != 0 || argF c 4 0 != 0 || (cal && argF c 23 23 != 0) || (sel && (fld w 63 26 != 0 || entryBad s l w)), stBadArg),
      (proofFull s m, stFull)] with
  | some st => refuse c st s
  | none =>
    let s := if sel then startPass cal m b s else startNext cal m s
    reply c stOk (Config.blockId m b).toNat [] s

/-- PROOF_START (13 R328). -/
def proofStartRun (c : Cmd) (s : State) : State := if argF c 23 23 = 1 then proofSramRun c s else proofBlockRun false c s

/-- CAL_START (13 R334). -/
def calStartRun (c : Cmd) (s : State) : State := proofBlockRun true c s

/-- AUTO_PROOF_START: every `interval_ms` a channel starts a pass; a start that would meet ST_FULL is skipped (13 R335). -/
def autoProofRun (m : Chn) (s : State) : State :=
  if !regB s 0x82000 31 then s
  else
    let s := advanceTo (chan s m).nextAuto s
    let gap := regF s 0x82000 15 0 * 1000 * cclkPerUs s.part.grade
    let s := modChan m (fun k => { k with nextAuto := s.cclk + gap }) s
    if proofFull s m then s else startNext false m s

/-- Copies row `r` of physical block `a` to block `b` of a channel, corrected where it can be (13 R320). -/
def copyRow (m : Chn) (a b r : Nat) (s : State) : State :=
  let k := chan s m
  match mget k.rows (a * 8192 + r) with
  | none => modChan m (fun k => { k with rows := mdel k.rows (b * 8192 + r),
                                         corr := k.corr.filter fun y => !(y.blk == b && y.row == r) }) s
  | some x =>
    let (y, hd, hm) := decodeRow x
    modChan m (putRow b r y) (countRow hd hm s)

/-- The sheet counters, pending decrements and forced mark of block `a` move to block `b`; a poisoned counter word stays so. -/
def moveSheet (a b : Nat) (k : Chan) : Chan :=
  let mine := (k.sheet.filter fun x => x.1 / 64 == a).map fun x => (b * 64 + x.1 % 64, healWord x.2)
  let gone := (k.sheetBad.filter fun x => x / 64 == a).map fun x => b * 64 + x % 64
  let k := setSheet b mine k
  let k := { k with sheetBad := k.sheetBad ++ gone }
  let dup := (k.pendDec.filter fun d => d.2.1 == a).map fun d => (d.1, b, d.2.2)
  { k with pendDec := (k.pendDec.filter fun d => d.2.1 != b) ++ dup
           forced := (k.forced.map fun x => if x = a then b else x).eraseDups
           rebuild := (k.rebuild.map fun x => if x = a then b else x).eraseDups
           rebuildAsked := (k.rebuildAsked.map fun x => if x = a then b else x).eraseDups }

/-- A copy of block `a`, which serves searches, to block `b` carries the sheet counters along (13 R330); they then follow the rows that
the copy corrected (02 R49). -/
def carrySheet (m : Chn) (a b : Nat) (s : State) : State :=
  let s := modChan m (moveSheet a b) (noteSheets m a s)
  match posServed (chan s m) a with
  | none => s
  | some pos => followCopy m pos m a b s

/-- Row operations of a phase (13 Table 13.11). -/
def phaseOps : Nat → Nat
  | 3 => 98304
  | 4 => 524288
  | _ => 8192

/-- The phase after phase `n` of a pass: 7 when the pass only waits for its end. Log 77 (DEDUCED). -/
def phaseAfter (r : ProofRun) (n : Nat) : Nat :=
  match n with
  | 1 => 2
  | 2 => if r.cal then 4 else 3
  | 3 => 4
  | 4 => if r.rows then 5 else 7
  | _ => n + 1

/-- One row operation of a pass on a block, in the present CCLK. In the march a false `ok` is a failing operation, which ends the pass; in
the calibration the last operation's `ok` tells whether some trim passed (13 R330-R332). Log 77 (DEDUCED). -/
def passOp (m : Chn) (ok : Bool) (r : ProofRun) (s : State) : State :=
  let spare := proofSpare (chan s m)
  let s := modWin m (fun w => { w with proof := w.proof + 1 }) (rowDebit s)
  let s := if r.phase = 1 then copyRow m r.blk spare r.op s else if r.phase = 5 then copyRow m spare r.blk r.op s else s
  let done := decide (r.op + 1 ≥ phaseOps r.phase)
  let fails := !ok && (r.phase == 3 || (r.phase == 4 && done))
  let r' : ProofRun := if fails then { r with failed := some r.phase }
    else if done then { r with phase := phaseAfter r r.phase, op := 0 } else { r with op := r.op + 1 }
  modChan m (fun k => { k with proof := some r' }) s

/-- A 1 KiB row that holds SRAM word `w`: the number of its memory and of the row. -/
def sramRow (w : Nat) : Nat × Nat := (6 + (memId w).getD 0, w / 128)

/-- The test of a lent page: one operation tests the page whole; a failing page is remapped when an entry is free (13 R336). Where the
regions deny the engine the page, the pass stops: abandoned (12 R295). Log 106 (DEDUCED). -/
def pageOp (ok : Bool) (p : SramProof) (s : State) : State :=
  let w := p.page * 512
  let next := { p with page := p.page + 1, attempts := 0 }
  if handlerPage s p.page then skipPage p s
  else if !rgnAllows s 11 p.page false || !rgnAllows s 11 p.page true then
    proofDone 4 none 2 none p.skipped { noteProofDenied [p.page] s with sramProof := none }
  else
  let s := noteWaits 11 s
  if ok then { s with sramProof := some next }
  else
    let (n, row) := sramRow w
    if remapsUsed s n < 32 then
      { s with sramProof := some next, remapRun := s.remapRun ++ [⟨none, n, row, w * 8⟩] }
    else logRec 4 ((memId w).getD 10) 0 0 (w * 8) { s with sramProof := some { next with failed := true } }

/-- PROOF_ROW_OP: one operation of the pass on a channel's block, or on the SRAM pages (13 R331, R336). Log 18 (DESIGN CHOICE). -/
def proofOpRun (t : Fin 5) (ok : Bool) (s : State) : State :=
  if t.val = 4 then
    match s.sramProof with
    | none => s
    | some p => if p.page > p.last then s else pageOp ok p s
  else
    let m := chn t
    match (chan s m).proof with
    | none => s
    | some r =>
      if r.failed.isSome || !([1, 3, 4, 5].contains r.phase) then s
      else
        let floor := regF s 0x20028 21 16 + 1
        let copies := r.phase = 1 || r.phase = 5
        let pos := (posServed (chan s m) (if r.phase = 1 then r.blk else proofSpare (chan s m))).getD 0
        match if copies then bgCycle m pos (·.proof) floor 8 (advance 4 s) else bgStart m (·.proof) floor (advance 4 s) with
        | none => s
        | some s => passOp m ok r s

/-- PROOF_REDIRECT: searches move to the proof spare in one CCLK, with the block's sheet counters (13 R330). -/
def proofRedirectRun (m : Chn) (s : State) : State :=
  match (chan s m).proof with
  | none => s
  | some r =>
    if r.phase ≠ 2 then s
    else
      let s := settlePipe s.cclk s
      modChan m (fun k => { k with proof := some { r with phase := phaseAfter r 2, op := 0, redirected := true } })
        (carrySheet m r.blk (proofSpare (chan s m)) s)

/-- A channel's physical block `b` holds nothing any more. -/
def clearBlk (b : Nat) (k : Chan) : Chan :=
  { k with rows := k.rows.filter fun x => x.1 / 8192 != b
           sheet := k.sheet.filter fun x => x.1 / 64 != b
           sheetBad := k.sheetBad.filter fun x => x / 64 != b
           corr := k.corr.filter fun x => x.blk != b
           pendDec := k.pendDec.filter fun d => d.2.1 != b }

/-- PROOF_RETURN: searches move back in one CCLK and the proof spare is released (13 R330). -/
def proofReturnRun (m : Chn) (s : State) : State :=
  match (chan s m).proof with
  | none => s
  | some r =>
    if r.phase ≠ 6 then s
    else
      let s := settlePipe s.cclk s
      modChan m (fun k => { clearBlk (proofSpare k) k with proof := some { r with phase := 7, redirected := false } })
        (carrySheet m (proofSpare (chan s m)) r.blk s)

/-! ### Repair (13 R337-R339) -/

/-- The position whose block a repair moves away from physical block `b`: 65 for the proof spare. Log 79 (DEDUCED). -/
def repairPos (k : Chan) (b : Nat) : Nat := if b = proofSpare k then 65 else b

/-- Starts a block repair: 8,192 row copies, at one in 4 CCLK (13 R331, R338). Log 79 (DEDUCED). -/
def startRepair (m : Chn) (pos : Nat) (held : Bool) (s : State) : State :=
  modChan m (fun k => { k with repair := some ⟨pos, s.cclk, held⟩ }) (rowDebits 8192 4 s)

/-- The repair spare of a channel is used (13 R337). -/
def repairUsed (k : Chan) : Bool := k.repaired.isSome || k.repair.isSome || k.heldBlk == some 64

/-- A pass on a block ends: returned with its new trim, or held with its searches on the proof spare (13 R332). -/
def endPass (m : Chn) (trim : BitVec 6) (r : ProofRun) (s : State) : State :=
  let id := (Config.blockId m r.blk).toNat
  match r.failed with
  | none =>
    let s := modChan m (fun k => { k with proof := none, trims := mset k.trims r.blk trim.toNat }) s
    proofDone m (some id) 0 (some trim.toNat) 0 (logBlock 3 0 m r.blk s)
  | some ph =>
    let s := modChan m (fun k => { k with proof := none, heldBlk := some r.blk }) s
    let s := proofDone m (some id) 1 none 0 (logBlock 4 ph m r.blk s)
    if regB s 0x82000 30 && !repairUsed (chan s m) then startRepair m (repairPos (chan s m) r.blk) true s else s

/-- PROOF_PASS_END: the pass on a channel's block, or on the SRAM pages, ends with its result (13 R332, R336); a pass on SRAM pages that
remapped every page that failed has passed. Log 119 (DESIGN CHOICE). -/
def proofEndRun (t : Fin 5) (trim : BitVec 6) (s : State) : State :=
  if t.val = 4 then
    match s.sramProof with
    | none => s
    | some p => if p.page ≤ p.last then s else proofDone 4 none (b2n p.failed) none p.skipped { s with sramProof := none }
  else
    let m := chn t
    match (chan s m).proof with
    | none => s
    | some r => if r.failed.isSome || r.phase = 7 then endPass m trim r s else s

/-- REPAIR with `mode` 0 or 1 (13 R337). -/
def repairBlockRun (c : Cmd) (s : State) : State :=
  let l := chn (argF c 7 6)
  let one := argF c 23 22 == 1
  let w := payW c 0
  let (m, pos) := if one then entryBlk s l (fld w 25 20) (fld w 19 0)
    else (l, match (chan s l).heldBlk with | some b => repairPos (chan s l) b | none => 0)
  let k := chan s m
  match firstBad [(payN c != (if one then 1 else 0), stBadLen),
      (argF c 21 8 != 0 || argF c 5 0 != 0 || (one && (fld w 63 26 != 0 || entryBad s l w)) || (!one && k.heldBlk.isNone), stBadArg),
      (repairUsed k || (one && spareBusy k) || s.sramProof.isSome, stFull)] with
  | some st => refuse c st s
  | none => reply c stOk 0 [] (startRepair m pos (!one) s)

/-- BLOCK_REPAIR_COMPLETE: the block is copied from where it is served to the repair spare, and redirected there (13 R338, R339).
Log 78 (DESIGN CHOICE). -/
def blockRepairRun (m : Chn) (s : State) : State :=
  match (chan s m).repair with
  | none => s
  | some r =>
    let s := advanceTo (r.start + 32768) s
    let s := settlePipe s.cclk s
    let k := chan s m
    let src := if r.pos = 65 then 65 else servePhys k r.pos
    let bad := if r.pos = 65 then 65 else basePhys k r.pos
    let rs := (k.rows.filter fun x => x.1 / 8192 == src).map (·.1 % 8192)
    let s := rs.foldl (fun s i => copyRow m src 64 i s) (modChan m (clearBlk 64) s)
    let s := modChan m (fun k =>
      { clearBlk src k with repaired := some r.pos, repair := none, heldBlk := if r.wasHeld then none else k.heldBlk }) (carrySheet m src 64 s)
    let id := Config.blockId m bad
    let (v, s) := draw (logBlock 5 0 m bad s)
    saveFor { type := 0x43, source := BitVec.ofNat 18 m, w1 := pack 64 [(id.toNat, 63, 48), (v.toNat, 47, 40), (fld v 63 32, 31, 0)] } s

/-- The row that REPAIR with `mode` 2 or 3 names, its locator, and whether the payload is in error (13 Table 13.13). -/
def remapTarget (s : State) (c : Cmd) : Bool × Nat × Nat × Nat :=
  let l := chn (argF c 7 6)
  let w := payW c 0
  if argF c 23 22 = 2 then
    let a := fld w 31 0
    let (n, row) := sramRow (a / 8)
    (fld w 63 32 != 0 || (memId (a / 8)).isNone || memId (a / 8) == some 9, n, row, a / 8 * 8)
  else
    let p := fld w 25 20
    let e := fld w 19 0
    let k := fld w 34 32
    let x := cfgOf s l p
    let (m, pos) := entryBlk s l p e
    (fld w 62 35 != 0 || fld w 31 26 != 0 || entryBad s l w || decide (k ≥ cfgG x),
     (if bitAt w 63 then 4 else 0) + m.val, (if bitAt w 63 then adIdx pos (rowOf x e) / 512 else adIdx pos (rowOf x e + k) / 128), entLoc m p e k)

/-- REPAIR with `mode` 2 or 3: the row waits to be switched; checked as 13 R329 sets, the proof spare of the channel it names included
(13 R337). -/
def repairRemapRun (c : Cmd) (s : State) : State :=
  let (bad, n, row, loc) := remapTarget s c
  match firstBad [(payN c != 1, stBadLen), (argF c 21 8 != 0 || argF c 5 0 != 0 || bad, stBadArg),
      (decide (remapsUsed s n ≥ 32) || spareBusy (chan s (chn (argF c 7 6))) || s.sramProof.isSome, stFull)] with
  | some st => refuse c st s
  | none => { s with remapRun := s.remapRun ++ [⟨some c, n, row, loc⟩] }

/-- The words of a row as a remap copies them: correctable words corrected and counted, poisoned bytes as stored (13 R338). -/
def healRow (mem lo : Nat) (m : Sram) (s : State) : Sram × State :=
  let mine := fun (x : Nat × SWord) => decide (lo ≤ x.1) && decide (x.1 < lo + 128)
  (m.map fun x => if mine x then (x.1, healWord x.2) else x,
   m.foldl (fun s x => if mine x && (decodeWord x.2).2.1 == .correctable then metCorr mem s else s) s)

/-- ROW_REMAP: the row at the head of those to be remapped is copied and switched in one CCLK (13 R338, R339). -/
def rowRemapRun (s : State) : State :=
  match s.remapRun with
  | [] => s
  | r :: t =>
    let s := settlePipe s.cclk { s with remapRun := t }
    let m := chn r.mem
    let s := if r.mem < 4 then
        let (x, s) := healRow 0 (r.row * 128) (chan s m).adm s
        modChan m (fun k => { k with adm := x }) s
      else if r.mem < 8 then
        let (x, s) := healRow 1 (r.row * 128) (chan s m).prio s
        modChan m (fun k => { k with prio := x }) s
      else
        let (x, s) := healRow (r.mem - 6) (r.row * 128) s.sram s
        { s with sram := x }
    let s := { s with remaps := s.remaps ++ [(r.mem, r.row)] }
    let mem := if r.mem < 4 then 0 else if r.mem < 8 then 1 else r.mem - 6
    let s := logRec 6 mem 0 0 r.loc s
    let s := saveFor { type := 0x43, source := if r.mem < 8 then BitVec.ofNat 18 m else 4,
                       w1 := pack 64 [(32 - remapsUsed s r.mem, 47, 40), (r.loc, 31, 0)] } s
    match r.cmd with
    | some c => reply c stOk 0 [] s
    | none => s

/-! ### Passes at a reset (13 R333) -/

/-- A reset that keeps table contents ends a running pass: dropped in phases 1 and 2; restored and returned with its previous trim in
phases 3 to 5, unless the block had failed (13 R333). -/
def passAtReset (m : Chn) (s : State) : State :=
  match (chan s m).proof with
  | none => s
  | some r =>
    let id := (Config.blockId m r.blk).toNat
    if r.failed.isSome then
      proofDone m (some id) 2 none 0 (modChan m (fun k => { k with proof := none, heldBlk := some r.blk }) s)
    else
      let s := if r.redirected then
          (List.range 8192).foldl (fun s i => copyRow m (proofSpare (chan s m)) r.blk i s) s
        else s
      let s := if r.redirected then carrySheet m (proofSpare (chan s m)) r.blk s else s
      let s := modChan m (fun k => { (if r.rows then clearBlk (proofSpare k) k else k) with proof := none }) s
      proofDone m (some id) 2 none 0 s

end Sys2Proof.Machine
end

