-- ==== Sys2Proof/Machine/Thermal.lean ====
section
/-! DEFINITION. Temperature: samples, levels, shutdown, and the 1,024-CCLK windows (11 R269-R272). -/

namespace Sys2Proof.Machine

/-- The readings of a sample as a list. -/
def tempList (t : Temps) : List (BitVec 16) := [t.t0, t.t1, t.t2, t.t3, t.t4, t.t5]

/-- Tj: the highest of the six readings, in quarters of a degree (11 R269). Log 72 (DEDUCED). -/
def hottest (t : Temps) : Int := (tempList t).foldl (fun m x => max m (sgn x)) (sgn t.t0)

/-- A sensor with the highest reading; which of several, the spec leaves open. -/
def hotSensor (t : Temps) (s : State) : Nat × State :=
  let l := below 6 fun i => sgn (nth (tempList t) i 0) == hottest t
  match l with
  | [i] => (i, s)
  | _ => let (v, s) := draw s; (nth l (v.toNat % max 1 l.length) 0, s)

/-- The level after a sample, from the present one (11 Table 11.4). Log 72 (DEDUCED). -/
def nextLevel (s : State) (tj : Int) : BitVec 2 :=
  let hard : Int := 4 * (regF s 0x20100 23 16 : Nat)
  let warn : Int := 4 * (regF s 0x20100 15 8 : Nat)
  let h : Int := 4 * (regF s 0x20100 3 0 : Nat)
  if tj ≥ hard || (s.dev.level == 2 && decide (tj ≥ hard - h)) then 2
  else if tj ≥ warn || (s.dev.level != 0 && decide (tj ≥ warn - h)) then 1
  else 0

/-- XPO_THERM (11 Table 11.9). -/
def thermEvt (t : Temps) (hot : Nat) (new old : BitVec 2) (s : State) : State :=
  let w := fun (a b c d : BitVec 16) => pack 64 [(a.toNat, 63, 48), (b.toNat, 47, 32), (c.toNat, 31, 16), (d.toNat, 15, 0)]
  postDev 8 { type := 0x50, source := BitVec.ofNat 18 hot,
              w1 := pack 64 [(new.toNat, 63, 62), (old.toNat, 61, 60), ((BitVec.ofInt 16 (hottest t)).toNat, 47, 32)],
              w2 := w t.t0 t.t1 t.t2 t.t3, w3 := w t.t4 t.t5 0 0 } s

/-- THERMAL_SAMPLE: the level follows the highest reading; HARD refuses every held A and B search as it is entered (11 R269, R271), and a
rise pulls SMB_ALERT_N low (18 R434). In thermal shutdown only the always-on watchdog takes the readings (R272). Log 18 (DESIGN CHOICE). -/
def thermalSampleRun (t : Temps) (s : State) : State :=
  if s.dev.st = .shutdown then { s with dev := { s.dev with temps := tempList t } }
  else if !running s then s
  else
  let (hot, s) := hotSensor t s
  let old := s.dev.level
  let new := nextLevel s (hottest t)
  let s := { s with dev := { s.dev with temps := tempList t, hot := BitVec.ofNat 3 hot, level := new },
                     pins := { s.pins with alertLow := s.pins.alertLow || decide (new.toNat > old.toNat) } }
  if new = old then s
  else
    let s := if new = 2 then (List.range 4).foldl (fun s i => (heldOf s (chn i)).foldl (fun s q => refuseHot q s) s) s else s
    thermEvt t hot new old s

/-- THERMAL_SHUTDOWN: at 125 °C the always-on watchdog stops every clock but LFCLK, also while the core domain is held in reset; lanes go
idle, the PCIe link goes down, and the pins are as in device DARKROOM (11 R272; 17 Table 17.7). Log 75 (DEDUCED). -/
def thermalShutdownRun (t : Temps) (s : State) : State :=
  if hottest t < 500 || s.dev.st == .shutdown then s
  else
    { s with
      dev := { s.dev with st := .shutdown, temps := tempList t }
      aon := { s.aon with shut := true }
      pins := { s.pins with thermLow := true, arrRet := true, alertLow := true, aliveLow := aliveAfter s .off }
      mbx := {}
      tb := { s.tb with ppsOutEnd := none }
      pg := s.pg.map fun g => { g with st := .down }
      ring := { s.ring with st := .off, east := { s.ring.east with st := .down }, west := { s.ring.west with st := .down } }
      pcie := { s.pcie with up := false } }

/-- G_FLOOR_WINDOW: the next window of 1,024 CCLK begins and its counts start from zero (11 R271, R282). -/
def gFloorWindowRun (s : State) : State :=
  let s := advanceTo ((s.cclk / 1024 + 1) * 1024) s
  (List.range 4).foldl (fun s i => modChan (chn i) (fun k => { k with win := { no := s.cclk / 1024 } }) s) s

end Sys2Proof.Machine
end

