-- ==== Sys2Proof/Machine/Ring.lean ====
section
/-! DEFINITION. The cascade ring: forming, cells, merges, loss and rejoin, and the frames of the cascade ports (07 R168-R186; 14 R353-R357). -/

namespace Sys2Proof.Machine

/-! ### State of the ring (07 R170, R171, R181, R183) -/

/-- `members` of CLP_RING_CTL. -/
def ringMembers (s : State) : Byte := BitVec.ofNat 8 (regF s 0x4C000 15 8)

/-- The members in `live`, counted. -/
def popB (b : Byte) : Nat := (bitsOf b).length

/-- Encoding of a ring state (07 Table 7.9). -/
def ringCode : RingSt → Nat
  | .off => 0
  | .forming => 1
  | .formed => 2
  | .wrapped => 3
  | .joining => 4

/-- Adopts a ring state with its `live` set: H of Table 7.2, ALIVE_N, and RING_CHANGE when anything changes (07 R170,
R171, R181). Log 61 (DEDUCED). -/
def adopt (st : RingSt) (live : Byte) (s : State) : State :=
  let h := match st with
    | .formed => popB live
    | .wrapped => 2 * (popB live - 1)
    | _ => 0
  let o := s.ring
  if o.st = st && o.live = live && o.hops = h then s
  else
    let s := { s with ring := { o with st := st, live := live, hops := h },
                      pins := { s.pins with aliveLow := aliveAfter s st } }
    post 6 ((getReg s 0x4C008).setWidth 18)
      { type := 0x20, source := s.dev.devId.setWidth 18,
        w1 := pack 64 [(o.live.toNat, 63, 56), (live.toNat, 55, 48), (ringCode st, 47, 45), (h, 44, 40)],
        w2 := pack 64 [((ringMembers s &&& ~~~live).toNat, 7, 0)] } s

/-- The members next to this part and beyond on a side, in the order of the ring: ascending device ids go east, round the end (07 R168). -/
def sideOf (s : State) (east : Bool) : List Nat :=
  let d := s.dev.devId.toNat
  ((List.range 8).map fun i => if east then (d + 1 + i) % 8 else (d + 15 - i) % 8).filter fun i => (ringMembers s).getLsbD i && i != d

/-- The live segment of this part when the members of `live` work: itself and those it reaches on either side through members that do
(07 R181). A member cut off from it counts as missing. Log 61 (DEDUCED). -/
def segment (live : Byte) (s : State) : Byte :=
  let reach := fun (east : Bool) => (sideOf s east).takeWhile fun i => live.getLsbD i
  maskOf 8 8 fun i => i == s.dev.devId.toNat || (reach true).contains i || (reach false).contains i

/-- Adopts this part's segment as the live members: FORMED when every member is in it, WRAPPED otherwise (07 R181). Log 61 (DEDUCED). -/
def adoptLive (l : Byte) (s : State) : State := adopt (if l = ringMembers s then .formed else .wrapped) l s

/-! ### Sending cells (07 R173, R174, R181) -/

/-- A cell leaves on the ring `east`: it waits behind those that are to go, ahead of this part's own new key cells (07 R178).
Log 65 (DESIGN CHOICE). -/
def sendCell (east : Bool) (c : Cell) (s : State) : State :=
  let s := pumpFrames s
  { s with ring := { s.ring with tx := s.ring.tx ++ [(outDir s east, c)] } }

/-- Counts a cell discarded, late or refused (07 Table 7.7 CLP_RING_DROP_CNT). -/
def dropCell (s : State) : State := bump 0x4C028 s

/-! ### Geometry (14 R357) -/

/-- Geometry of this part's profile `p`. -/
def geoOf (s : State) (p : Nat) : Geometry :=
  let x := profOf s p
  ⟨BitVec.ofNat 2 (x.lk.length - 1), (spanOf x).2 / 4, x.lk.map lkAd⟩

/-- Geometry that device `d` gave for profile `p`; this part's own for itself. -/
def geoFrom (s : State) (d p : Nat) : Option Geometry :=
  if d = s.dev.devId.toNat then some (geoOf s p) else mget s.ring.geo (d * 128 + p)

/-- The content of a geometry cell. Log 62 (DESIGN CHOICE). -/
def geoBytes (p : Nat) (g : Geometry) : List Byte :=
  [BitVec.ofNat 8 p, g.nlk.setWidth 8, BitVec.ofNat 8 g.spanWords] ++ g.ad.map (BitVec.ofNat 8)

/-- Sends the geometry of every cascaded profile on the ring `east`. -/
def sendGeometryOn (east : Bool) (s : State) : State :=
  (below 128 fun p => profCasc s p && profOn (getReg s (profReg p 0))).foldl (fun s p =>
    sendCell east (.control 2 s.dev.devId (geoBytes p (geoOf s p))) s) s

/-- Sends the geometry of every cascaded profile on both rings. -/
def sendGeometry (s : State) : State := sendGeometryOn false (sendGeometryOn true s)

/-- A geometry cell that travels on the ring `east`: a member stores what another gives for a cascaded profile, and passes the cell on
until it comes back to its sender (14 R357). -/
def geometryIn (east : Bool) (d : Fin 8) (p : BitVec 7) (g : Geometry) (s : State) : State :=
  if s.ring.st = .off || d.val = s.dev.devId.toNat then s
  else sendCell east (.control 2 (BitVec.ofNat 3 d) (geoBytes p.toNat g))
    { s with ring := { s.ring with geo := mset s.ring.geo (d.val * 128 + p.toNat) g } }

/-- GEOMETRY_CELL (14 R357). The ring that it came on is not part of the row; it goes on by either. Log 63 (DEDUCED). -/
def geometryRun (d : Fin 8) (p : BitVec 7) (g : Geometry) (s : State) : State :=
  let (v, s) := draw s
  geometryIn (v.getLsbD 0) d p g s

/-! ### Forming (07 R169-R171) -/

/-- `grade` of Table 1.12. -/
def gradeCode : Grade → BitVec 4
  | .g10 => 0
  | .g12 => 1

/-- What this part puts into a formation cell. -/
def ownId (s : State) : MemberId := ⟨s.dev.devId, gradeCode s.part.grade, ringMembers s⟩

/-- The content of a formation cell. Log 62 (DESIGN CHOICE). -/
def formBytes (l : List MemberId) : List Byte := l.flatMap fun m => [m.dev.setWidth 8, m.grade.setWidth 8, m.members]

/-- Begins to take part: FORMING, or JOINING while another member serves the ring; the ports train (07 R170, R171). -/
def startRing (s : State) : State :=
  let s := { s with ring := { ({} : Ring) with east := { st := .train, heardAt := s.cclk }, west := { st := .train, heardAt := s.cclk }, formAt := s.cclk } }
  adopt (if s.pins.aliveLow then .joining else .forming) 0 s

/-- Leaves the ring: OFF, cascade lanes in electrical idle (07 R170). -/
def stopRing (s : State) : State :=
  let s := adopt .off 0 s
  { s with ring := { ({} : Ring) with geo := s.ring.geo, tx := s.ring.tx, refuse := s.ring.refuse } }

/-- The member wired to a port (07 R168). -/
def neighbourOf (s : State) (east : Bool) : Option Nat := (sideOf s east).head?

/-- The lowest live member: a member counts as live until it is known to be absent (07 R170). Log 61 (DEDUCED). -/
def lowestLive (s : State) : Option Nat := (bitsOf (ringMembers s &&& ~~~s.ring.absent)).head?

/-- The lowest live member sends the formation cell east, once its east port is up and its west port is up or its neighbour there absent
(07 R170). -/
def portsUp (s : State) : State :=
  let westDone := s.ring.west.st = .up || (match neighbourOf s false with | some i => s.ring.absent.getLsbD i | none => true)
  if s.ring.east.st = .up && westDone && s.ring.st = .forming && lowestLive s = some s.dev.devId.toNat then
    sendCell true (.control 1 s.dev.devId (formBytes [ownId s])) s
  else s

/-- A neighbour fails the check of 07 R169: its port stays down, and it counts as missing. -/
def refuseNeighbour (east : Bool) (s : State) : State :=
  let bit : Byte := match neighbourOf s east with | some i => BitVec.ofNat 8 (2 ^ i) | none => 0
  modPort east (fun p => { p with st := .down }) { s with ring := { s.ring with absent := s.ring.absent ||| bit } }

/-- A member's entry passes the check of 07 R169. -/
def idFits (s : State) (m : MemberId) : Bool :=
  m.dev != s.dev.devId && m.grade == gradeCode s.part.grade && m.members == ringMembers s

/-- A formation cell that this part sent has come back: its own entry comes first, as it wrote it, and the entries after it are those of
every other member; a cell that lacks one is another part's with the same device id (07 R169, R170). Log 61 (DEDUCED). -/
def formationBack (l : List MemberId) (s : State) : Bool :=
  let seen : Byte := maskOf 8 8 fun i => l.any fun m => m.dev.toNat == i
  l.head? == some (ownId s) && lowestLive s == some s.dev.devId.toNat && ringMembers s &&& (~~~seen ||| s.ring.absent) == 0

/-- FORMATION_CELL: passed on east with this part's own entry; the lowest member has the ring FORMED when it comes back whole, and tells
the others. An entry that fails the check ends the attempt, and the port to the neighbour that it is of stays down: the last entry is of
the neighbour in the west; the first is the sender's, the east neighbour of the highest member, or, when the cell has come back, of
the east neighbour (07 R169, R170). Log 61 (DEDUCED). -/
def formationRun (l : List MemberId) (s : State) : State :=
  if s.ring.st ≠ .forming then s
  else
    let back := formationBack l s
    let others := if back then l.drop 1 else l
    if !others.all (idFits s) then
      let s := if (others.getLast?.map (idFits s)) == some false then refuseNeighbour false s else s
      let s := if (back || neighbourOf s true == lowestLive s) && (others.head?.map (idFits s)) == some false then refuseNeighbour true s else s
      dropCell s
    else if !back then sendCell true (.control 1 s.dev.devId (formBytes (l ++ [ownId s]))) s
    else sendCell true (.control 3 s.dev.devId [ringMembers s]) (adopt .formed (ringMembers s) s)

/-- The segment is folded at its ends: a port whose neighbour is not live turns cells back (07 R170, R181). -/
def foldPorts (live : Byte) (s : State) : State :=
  let cut := fun (east : Bool) => match neighbourOf s east with | some i => !live.getLsbD i | none => true
  modPort true (fun p => { p with wrapped := cut true }) (modPort false (fun p => { p with wrapped := cut false }) s)

/-- FORMING_TIMEOUT: 50 us after the start of forming the reachable members enter WRAPPED without the others (07 R170). -/
def formingTimeoutRun (reach : BitVec 8) (s : State) : State :=
  if s.ring.st ≠ .forming then s
  else
    let s := advanceTo (s.ring.formAt + 50 * cclkPerUs s.part.grade) s
    let live := segment (reach &&& ~~~s.ring.absent) s
    adopt .wrapped live (foldPorts live s)

/-! ### Loss and rejoin (07 R181-R184) -/

/-- The live members beyond a port of a segment, from its neighbour on. -/
def beyond (s : State) (east : Bool) : List Nat := (sideOf s east).takeWhile fun i => s.ring.live.getLsbD i

/-- A port has received a good frame, which is its heartbeat, or a cell (07 R181, 14 R355). -/
def heardOn (east : Bool) (s : State) : State := modPort east (fun p => { p with heardAt := s.cclk }) s

/-- NEIGHBOUR_LOST: 1.0 us after the port last heard a frame or a cell the part wraps there, turns back the cells that were to leave there,
adopts the new state and tells the others (07 R181). While FORMING the neighbour counts as absent. -/
def neighbourLostRun (east : Bool) (s : State) : State :=
  let s := advanceTo ((portOf s east).heardAt + cclkPerUs s.part.grade) s
  if !ringServes s then
    if s.ring.st = .off then s
    else
      let s := modPort east (fun p => { p with st := .train }) s
      if s.ring.st = .forming then
        let bit : Byte := match neighbourOf s east with | some i => BitVec.ofNat 8 (2 ^ i) | none => 0
        portsUp { s with ring := { s.ring with absent := s.ring.absent ||| bit } }
      else s
  else
    let gone := if s.ring.st = .formed then (neighbourOf s east).toList else beyond s east
    let live := segment (s.ring.live &&& ~~~(maskOf 8 8 fun i => gone.contains i)) s
    let s := modPort east (fun p => { p with st := .train, wrapped := true, carry := [], resync := true, left := [] }) s
    let turn := fun (x : Bool × Cell) => (outDir s x.1, x.2)
    let s := { s with ring := { s.ring with tx := s.ring.tx.map turn, fresh := s.ring.fresh.map turn } }
    sendCell (!east) (.control 3 s.dev.devId [live]) (adoptLive live s)

/-- A fence of this part is under way: the part joins, and cells behind the fence already pass it (07 R184). -/
def fenceOut (s : State) : Bool := s.ring.st == .joining && (s.ring.east.fence || s.ring.west.fence)

/-- A ring-change cell arrives on a ring (07 R181). A part that forms adopts its set, folded where a neighbour is not in it; one that serves
narrows its own by it, so that two members lost at once close the ring in the same way; either passes on what it has learnt. A part that
joins changes neither `live` nor `missing` (R183), and passes the cell on behind its fence. -/
def ringChange (east : Bool) (live : Byte) (s : State) : State :=
  match s.ring.st with
  | .off => s
  | .joining => if fenceOut s then sendCell east (.control 3 s.dev.devId [live]) s else s
  | .forming =>
    let l := segment (live &&& ~~~s.ring.absent) s
    if l = s.ring.live then s else sendCell east (.control 3 s.dev.devId [l]) (adoptLive l (foldPorts l s))
  | _ =>
    let l := segment (live &&& s.ring.live) s
    if l = s.ring.live then s else sendCell east (.control 3 s.dev.devId [l]) (adoptLive l s)

/-- RING_CHANGE_CELL (07 R181). The ring that it came on is not part of the row; it goes on by either. Log 63 (DEDUCED). -/
def ringChangeRun (live : BitVec 8) (s : State) : State :=
  let (v, s) := draw s
  ringChange (v.getLsbD 0) live s

/-- The content of a fence cell: the ring it was sent on, and the live members it has met. Log 62 (DESIGN CHOICE). -/
def fenceBytes (ring : Bool) (live : Byte) : List Byte := [if ring then 1 else 0, live]

/-- REJOIN: in JOINING the part turns cells back at a port that no neighbour answers on, and sends its geometry and a fence cell round both
rings; with no port up it serves alone (07 R170, R184; 14 R357). -/
def rejoinRun (s : State) : State :=
  if s.ring.st ≠ .joining then s
  else
    let up := s.ring.east.st = .up || s.ring.west.st = .up
    let begin := fun (p : CascPort) => { p with fence := up, heard := 0, wrapped := decide (p.st ≠ .up) }
    let s := modPort true begin (modPort false begin s)
    if !up then adoptLive (ownBit s) s
    else
      let fence := fun (r : Bool) (s : State) => sendCell r (.control 4 s.dev.devId (fenceBytes r (ownBit s))) s
      fence false (fence true (sendGeometry s))

/-- Both fences of a joining part have passed: the set that they have met is live, with this part's own (07 R184). -/
def fencesPassed (s : State) : State :=
  let live := segment (s.ring.live ||| s.ring.east.heard ||| s.ring.west.heard ||| ownBit s) s
  let done := fun (p : CascPort) => { p with fence := false, heard := 0 }
  adoptLive live (foldPorts live (modPort true done (modPort false done s)))

/-- A serving member meets a fence of part `d`, which is not live: a port wired to `d` unwraps, and the member sends its geometry there;
the fence goes on with the members that are live here; when both have passed, `d` and the members that they met are live (07 R184, 14
R357). -/
def fencePasses (port : Bool) (d : BitVec 3) (ring : Bool) (live : Byte) (s : State) : State :=
  let s := modPort port (fun p => { p with wrapped := p.wrapped && neighbourOf s port != some d.toNat, st := .up }) s
  let s := modPort ring (fun p => { p with fence := true, heard := p.heard ||| live ||| BitVec.ofNat 8 (2 ^ d.toNat) }) (sendGeometryOn port s)
  let s := sendCell (!port) (.control 4 d (fenceBytes ring (live ||| s.ring.live))) s
  if s.ring.east.fence && s.ring.west.fence then fencesPassed s else s

/-- FENCE_CELL at a port: the fence that part `d` sent on `ring`, with the live members that it has met (07 R184). The joining part passes
its own on until it has gone all the way round; a fence record is kept for the ring it was sent on. Log 61 (DEDUCED). -/
def fenceIn (port : Bool) (d : BitVec 3) (ring : Bool) (live : Byte) (s : State) : State :=
  let on := fun (s : State) => sendCell (!port) (.control 4 d (fenceBytes ring live)) s
  if d = s.dev.devId then
    if !fenceOut s || !(portOf s ring).fence then s
    else if (!port) != ring && outDir s (!port) != ring then on s
    else
      let s := modPort ring (fun p => { p with fence := false, heard := live }) s
      if fenceOut s then s else fencesPassed s
  else if !ringServes s then (if fenceOut s then on s else s)
  else if s.ring.live.getLsbD d.toNat then on s
  else fencePasses port d ring live s

/-! ### Key cells (07 R174, R177, R180) -/

/-- The key image that a span gives: its bytes from the span's first, every other bit zero (07 R173). -/
def spanKey (lo : Nat) (l : List Byte) : Key :=
  BitVec.ofNat 640 (l.zipIdx.foldl (fun n x => n + x.1.toNat * 2 ^ (8 * (lo + x.2))) 0)

/-- The member's profile is disabled, not cascaded, or differs from the origin's (07 R177, 14 R357). -/
def profDiffers (s : State) (c : KeyCell) : Bool :=
  let p := c.profile.toNat
  let g := geoOf s p
  !profOn (getReg s (profReg p 0)) || !profCasc s p || g.nlk != c.nlk || 4 * g.spanWords != c.span.length ||
    (match mget s.ring.geo (c.origin.toNat * 128 + p) with | some o => o.ad != g.ad | none => false)

/-- A result cell of this part's own, or a key cell, has gone all the way round when it arrives on the ring it was sent on, or when the
port it would leave by turns it back onto it (07 R173, R181). Log 63 (DEDUCED). -/
def cameRound (s : State) (slot : BitVec 9) (east : Bool) : Bool :=
  match (s.searches.findSome? fun q => q.org.filter fun o => o.slot == slot && o.f != 0) with
  | some o => east == o.east || outDir s east == o.east
  | none => true

/-- This part serves, or has refused, the search of an origin's slot. -/
def serving (s : State) (o : BitVec 3) (n : BitVec 9) : Bool :=
  s.searches.any (fun q => match q.mem with | some m => m.origin == o && m.slot == n | none => false) ||
    s.ring.refuse.any fun r => r.1 == o && r.2.1 == n

/-- A key cell passes the second time: it passed on the other ring less than the ring's time ago (07 R174, R181). -/
def secondPass (s : State) (k : Nat) (east : Bool) : Bool :=
  s.ring.seen.any fun x => x.1 == k && x.2.1 != east && decide (s.cclk ≤ x.2.2 + ringDelay s)

/-- A new search of an origin's slot ends what is left of the slot's former one, whose result cell was lost (07 R182). -/
def forgetSlot (o : BitVec 3) (n : BitVec 9) (s : State) : State :=
  { s with searches := s.searches.filter fun q => match q.mem with | some m => !(m.origin == o && m.slot == n) | none => true
           ring := { s.ring with refuse := s.ring.refuse.filter fun r => !(r.1 == o && r.2.1 == n) } }

/-- Notes a first passage: on a folded ring, a cell that this part does not turn back passes again on the other ring (07 R170). -/
def noteSeen (k : Nat) (east : Bool) (s : State) : State :=
  let l := s.ring.seen.filter fun x => x.1 != k
  { s with ring := { s.ring with seen := if s.ring.st != .formed && outDir s east == east then l ++ [(k, east, s.cclk)] else l } }

/-- KEY_CELL_RECEIVE on the ring `east`: forwarded at once, and on its first passage offered as a G-class search from the cascade source
(07 R174). Log 22 (DEDUCED). -/
def keyCellRun (east : Bool) (c : KeyCell) (s : State) : State :=
  let s := heardOn (!east) s
  if !ringServes s && !fenceOut s then s
  else if c.origin = s.dev.devId then (if cameRound s c.slot east then s else sendCell east (.key c) s)
  else
    let k := c.origin.toNat * 512 + c.slot.toNat
    let s := sendCell east (.key c) s
    if secondPass s k east then { s with ring := { s.ring with seen := s.ring.seen.filter fun x => x.1 != k } }
    else
    let s := noteSeen k east (forgetSlot c.origin c.slot { s with ring := { s.ring with slots := mset s.ring.slots k c.profile.toNat } })
    if profDiffers s c then { s with ring := { s.ring with refuse := s.ring.refuse ++ [(c.origin, c.slot, 4)] } }
    else
      let p := profOf s c.profile.toNat
      let ch := leadOf s (profLead p)
      let cmd : Cmd := { op := 0x10, p := { ap := 0, arg := c.profile.setWidth 24 }, chk := s.cclk, id := s.nextId }
      let q : Srch := { cmd := cmd, tChk := s.tb.t, prof := p, ch := ch, cls := 0, key := spanKey (spanOf p).1 c.span, stampIn := c.stamp,
                        mem := some ⟨c.origin, c.slot, east⟩, given := lockMode s ch != 3, stage := .offer s.cclk }
      demandWake q { s with nextId := s.nextId + 1, searches := s.searches ++ [q] }

/-! ### Merging (07 R176, R177) -/

/-- The outcome that a cell's lookup and poison word give. -/
def cellLk (j : Nat) (pois : Word) (x : CellLk) : LkRes :=
  let w := x.word
  { home := BitVec.ofNat 2 (fld w 36 35), hit := bitAt w 63, multi := bitAt w 62, suspect := bitAt w 61, part := bitAt w 60,
    prio := BitVec.ofNat 16 (fld w 55 40), dev := BitVec.ofNat 3 (fld w 39 37), chan := BitVec.ofNat 2 (fld w 36 35),
    partition := BitVec.ofNat 6 (fld w 34 29), count := fld w 28 20, entry := fld w 19 0, ad := x.ad,
    adPois := (List.range 8).map fun k => bitAt pois (32 + 8 * j + k), prioPois := bitAt pois j }

/-- The candidate of `a` ranks before that of `b` (02 R43, R46). -/
def ranksFirst (a b : LkRes) : Bool :=
  if a.hit != b.hit then a.hit
  else if !a.hit then false
  else if a.prio != b.prio then decide (a.prio.toNat > b.prio.toNat)
  else if a.dev != b.dev then decide (a.dev.toNat < b.dev.toNat) else decide (a.entry < b.entry)

/-- The running best after a merge of this part's `own` into `cell`; on equal rank, and where neither hits, `base` stays (02 R46). -/
def mergeLk (cell own base : LkRes) : LkRes :=
  let n := min 511 (cell.count + own.count)
  let w := if ranksFirst own cell then own else if ranksFirst cell own then cell else base
  { w with count := n, multi := decide (n ≥ 2), hit := cell.hit || own.hit }

/-- Poison bits of one lookup in the cell's poison word. -/
def lkPois (j : Nat) (r : LkRes) : Word :=
  (maskOf 64 32 fun i => i / 8 == j && nth r.adPois (i % 8) false) <<< 32 ||| maskOf 64 4 fun i => i == j && r.prioPois

/-- The result cell with a member's own results merged in. Log 22 (DEDUCED). -/
def mergeCell (q : Srch) (c : ResultCell) : ResultCell :=
  let pw := c.poison.getD 0
  let rs := q.cmp.getD []
  let ms := c.lks.zipIdx.map fun x =>
    let old := cellLk x.2 pw x.1
    mergeLk old (nth rs x.2 {}) old
  let lks := ms.zipIdx.map fun x => if x.1.hit then
      (⟨resultWord 0 x.1, (List.range (lkAd (nth q.prof.lk x.2 0))).map fun k => nth x.1.ad k 0⟩ : CellLk)
    else nth c.lks x.2 ⟨0, []⟩
  let pois := ms.zipIdx.foldl (fun w x => w ||| lkPois x.2 x.1) (0 : Word)
  { c with lks := lks, poison := if pois = 0 then none else some pois }

/-- The candidates of this member that rank first in their lookups when its results meet the cell: those whose poison it counts (07 R176).
-/
def mergeWins (q : Srch) (c : ResultCell) : List LkRes :=
  (q.cmp.getD []).zipIdx.filterMap fun x =>
    if ranksFirst x.1 (cellLk x.2 (c.poison.getD 0) (nth c.lks x.2 ⟨0, []⟩)) then some x.1 else none

/-- What becomes of a result cell that waits at this member: merged and forwarded when its results are delivered, forwarded with its
refusal, or, in a second passage of a folded ring, as it is; none while it waits (07 R174, R176, R177). A member counts the poison of its
candidates that rank first whenever it merges. Log 113 (DESIGN CHOICE). -/
def passCell (s : State) (c : ResultCell) : Option (ResultCell × State) :=
  match s.ring.refuse.find? fun r => r.1 == c.origin && r.2.1 == c.slot with
  | some r => some (if c.refuse = 0 then { c with refuse := r.2.2 } else c,
      { s with ring := { s.ring with refuse := s.ring.refuse.filter fun x => !(x.1 == c.origin && x.2.1 == c.slot) } })
  | none =>
    match s.searches.find? fun q => match q.mem with | some m => m.origin == c.origin && m.slot == c.slot | none => false with
    | none => some (c, s)
    | some q => match q.stage with
      | .cell _ => some (mergeCell q c, notePoison (mergeWins q c) (dropSrch q.cmd.id s))
      | _ => none

/-- Cells that wait at this member go on as far as they may; done after every command. Log 65 (DESIGN CHOICE). -/
def pumpRing (s : State) : State :=
  s.ring.wait.foldl (fun s x =>
    match passCell s x.2 with
    | none => { s with ring := { s.ring with wait := s.ring.wait ++ [x] } }
    | some (c, s) => sendCell x.1 (.result c) s) { s with ring := { s.ring with wait := [] } }

/-- RESULT_CELL_MERGE on the ring `east`: another's cell waits for this member's results; this part's own has come back, or is late
(07 R174, R176, R182). -/
def resultCellRun (east : Bool) (c : ResultCell) (s : State) : State :=
  let s := heardOn (!east) s
  if !ringServes s && !fenceOut s then s
  else if c.origin ≠ s.dev.devId then pumpRing { s with ring := { s.ring with wait := s.ring.wait ++ [(east, c)] } }
  else if !cameRound s c.slot east then sendCell east (.result c) s
  else if s.searches.any (fun q => match q.org with | some o => o.slot == c.slot && o.f != 0 | none => false) then
    { s with ring := { s.ring with back := s.ring.back.filter (·.slot != c.slot) ++ [c] } }
  else dropCell s

/-- LATE_RESULT_CELL: a cell of this part's own arrives after its deadline (07 R182). -/
def lateCellRun (c : ResultCell) (s : State) : State :=
  let waits := s.searches.any fun q => match q.org with | some o => o.slot == c.slot && o.f != 0 | none => false
  if !ringServes s || c.origin ≠ s.dev.devId || waits then s else dropCell s

/-- Status of a `refuse` code (07 Table 7.5). -/
def refuseStatus (c : BitVec 3) : Byte :=
  match c.toNat with
  | 1 => stBudget
  | 2 => stThermal
  | 3 => stQuiesced
  | 4 => stBadArg
  | _ => stStaleNeg

/-- A header-only reply of a cascaded search at its fixed time (07 R177, R182). -/
def ringRefuse (q : Srch) (del : Nat) (st : Byte) (s : State) : State :=
  let l := leadOf s q.ch
  let info := if st = stStaleNeg then (chan s l).stamp.toNat else 0
  let n := del + 2 + (if profSe q.prof.ctl then 16 else 0)
  let r := { mkReply q.cmd st (heldInfo q + info) [] n with
    ord := q.ord, cnt := some q.ch, ringSlot := slotOf q, stamp := if st = stStaleNeg then some (l, (chan s l).stamp) else none }
  sendReply q.cmd r (dropSrch q.cmd.id s)

/-- The handle word of a remote winner lies beyond the words its cell carries: its value is open. -/
def padHandle (q : Srch) (dev : BitVec 3) (rs : List LkRes) (s : State) : List LkRes × State :=
  let j := profSeLk q.prof.ctl
  let w := fld q.prof.se 8 6
  let r := nth rs j {}
  if profSe q.prof.ctl && r.hit && r.dev != dev && decide (w ≥ r.ad.length) then
    let (v, s) := draw s
    (rs.set j { r with ad := (List.range (w + 1)).map fun k => if k = w then v else nth r.ad k 0 }, s)
  else (rs, s)

/-- CASCADE_ORIGIN_MERGE: the origin merges the cell that came back with its own results, or answers a refusal or a timeout (07 R175-R177,
R182, R183). -/
def originMergeRun (slot : BitVec 9) (s : State) : State :=
  match s.searches.find? fun q => match q.org, q.stage with | some o, .cell _ => o.slot == slot | _, _ => false with
  | none => s
  | some q =>
    let del := match q.stage with | .cell d => d | _ => s.cclk
    let s := advanceTo del s
    match s.ring.back.find? (·.slot == slot) with
    | none => ringRefuse q del stTimeout (bump 0x4C020 s)
    | some c =>
      let s := { s with ring := { s.ring with back := s.ring.back.filter (·.slot != slot) } }
      if c.refuse ≠ 0 then ringRefuse q del (refuseStatus c.refuse) s
      else
        let pw := c.poison.getD 0
        let rs := (q.cmp.getD []).zipIdx.map fun x => mergeLk (cellLk x.2 pw (nth c.lks x.2 ⟨0, []⟩)) x.1 x.1
        let (rs, s) := padHandle q s.dev.devId (markPart q rs) s
        resultsDone q rs (poisonReport rs) del (notePoison rs s)

/-! ### Frames of a cascade port (14 R355-R357) -/

/-- Length of the cell that begins with `l`, from the origin's geometry; none where it is not yet known, or cannot be (the flag). -/
def cellLen (s : State) (key : Bool) (l : List Byte) : Option Nat × Bool :=
  if key then
    if l.length < 4 then (none, false)
    else
      let h := BitVec.ofNat 32 (bytesNat (l.take 4))
      match geoFrom s (fld h 31 29) (fld h 19 13) with
      | some g => (some (4 + 4 * g.spanWords), false)
      | none => (none, true)
  else if l.length < 2 then (none, false)
  else
    let h := BitVec.ofNat 16 (bytesNat (l.take 2))
    let o := fld h 15 13
    let prof := if o = s.dev.devId.toNat then
        s.searches.findSome? fun q => match q.org with | some x => if x.slot.toNat = fld h 12 4 then some (srchProf q.cmd) else none | none => none
      else mget s.ring.slots (o * 512 + fld h 12 4)
    match prof.bind (geoFrom s o) with
    | some g => (some (2 + 8 * g.ad.foldl (fun n a => n + 1 + a) 0 + (if bitAt h 0 then 8 else 0)), false)
    | none => (none, true)

/-- The key cell of its bytes (07 Table 7.3). -/
def parseKey (l : List Byte) : KeyCell :=
  let h := BitVec.ofNat 32 (bytesNat (l.take 4))
  ⟨BitVec.ofNat 3 (fld h 31 29), BitVec.ofNat 9 (fld h 28 20), BitVec.ofNat 7 (fld h 19 13), BitVec.ofNat 2 (fld h 12 11),
   BitVec.ofNat 8 (fld h 7 0), l.drop 4⟩

/-- The words of a cell from byte 2 on, cut by the A_j of its lookups. -/
def cutLks : List Nat → List Word → List CellLk
  | [], _ => []
  | a :: t, ws => ⟨nth ws 0 0, (ws.drop 1).take a⟩ :: cutLks t (ws.drop (1 + a))

/-- The result cell of its bytes (07 Table 7.4). -/
def parseResult (s : State) (l : List Byte) : ResultCell :=
  let h := BitVec.ofNat 16 (bytesNat (l.take 2))
  let ws := (chunks 8 64 (l.drop 2)).map bytesWord
  let o := fld h 15 13
  let prof := if o = s.dev.devId.toNat then
      s.searches.findSome? fun q => match q.org with | some x => if x.slot.toNat = fld h 12 4 then some (srchProf q.cmd) else none | none => none
    else mget s.ring.slots (o * 512 + fld h 12 4)
  let ad := match prof.bind (geoFrom s o) with | some g => g.ad | none => []
  ⟨BitVec.ofNat 3 o, BitVec.ofNat 9 (fld h 12 4), BitVec.ofNat 3 (fld h 3 1), cutLks ad ws,
   if bitAt h 0 then ws.getLast? else none⟩

/-- A whole cell is handled as its kind sets; a cell of the east port travels west. -/
def cellIn (port : Bool) (key : Bool) (l : List Byte) (s : State) : State :=
  if key then keyCellRun (!port) (parseKey l) s else resultCellRun (!port) (parseResult s l) s

/-- Takes cells from the bytes of a frame: `kinds` of the cells still to start in it, `begun` the bytes of a cell begun. Zero bytes to the
end are filler, or the first bytes of a cell, which the next frame's `first` tells (14 R356). -/
def takeCells (port : Bool) : Nat → List Bool → Option (Bool × List Byte) → List Byte → State → State
  | 0, _, _, _, s => s
  | fuel + 1, kinds, begun, l, s =>
    match begun with
    | none =>
      if l.all (· == 0) && !kinds.headD false then modPort port (fun p => { p with carry := l, carryKey := kinds.headD false, carryMaybe := true }) s
      else takeCells port fuel (kinds.drop 1) (some (kinds.headD false, [])) l s
    | some (key, got) =>
      match cellLen s key (got ++ l) with
      | (_, true) => dropCell (modPort port (fun p => { p with carry := [], resync := true }) s)
      | (none, _) => modPort port (fun p => { p with carry := got ++ l, carryKey := key, carryMaybe := false }) s
      | (some n, _) =>
        if (got ++ l).length < n then modPort port (fun p => { p with carry := got ++ l, carryKey := key, carryMaybe := false }) s
        else takeCells port fuel kinds none (l.drop (n - got.length)) (cellIn port key ((got ++ l).take n) s)

/-- A ring control cell (14 R357). -/
def controlIn (port : Bool) (l : List Byte) (s : State) : State :=
  let d := (nth l 1 0).setWidth 3
  let b := l.drop 2
  match (nth l 0 0).toNat with
  | 1 =>
    let ms := ((chunks 3 8 b).filter fun x => x.any (· != 0)).map fun x =>
      (⟨(nth x 0 0).setWidth 3, (nth x 1 0).setWidth 4, nth x 2 0⟩ : MemberId)
    formationRun ms s
  | 2 =>
    let n := (nth b 1 0).toNat % 4
    geometryIn (!port) ⟨d.toNat % 8, Nat.mod_lt _ (by decide)⟩ ((nth b 0 0).setWidth 7)
      ⟨BitVec.ofNat 2 n, (nth b 2 0).toNat, ((b.drop 3).take (n + 1)).map (·.toNat)⟩ s
  | 3 => ringChange (!port) (nth b 0 0) s
  | 4 => fenceIn port d (nth b 0 0 != 0) (nth b 1 0) s
  | _ => s

/-- Cells with bytes in a frame, from the ends of those that begin at `l` on, `carry` counting as one (14 R356). -/
def cellsIn (s : State) : Nat → List Bool → List Byte → Nat
  | 0, _, _ => 0
  | fuel + 1, kinds, l =>
    if l.all (· == 0) then 0
    else match cellLen s (kinds.headD false) l with
      | (some n, _) => 1 + cellsIn s fuel (kinds.drop 1) (l.drop n)
      | (none, _) => 1

/-- The cells that a discarded frame loses: one begun before it, and those that begin in it as far as it tells (07 R182, 14 R356).
Log 65 (DESIGN CHOICE). -/
def lostCells (s : State) (p : CascPort) (f : Frame) : Nat :=
  let first := fld f.ctl 55 48
  let kinds := (List.range 24).map fun i => bitAt f.ctl (24 + i)
  b2n (!p.carry.isEmpty && !p.carryMaybe) +
    (if first = 0 && kinds.all id then 1 else if first ≥ 248 then 0 else cellsIn s 24 kinds (f.bytes.drop first))

/-- A result cell that begins with the bytes `l`, all zero, goes on beyond them: what follows tells whether they are it or filler (14
R356). -/
def longCell (s : State) (l : List Byte) : Bool := match (cellLen s false l).1 with | some n => decide (l.length < n) | none => false

/-- A frame that has got past injection: checked, and its cells taken (14 R356). -/
def frameIn (port : Bool) (f : Frame) (s : State) : State :=
  let p := portOf s port
  if p.st ≠ .up then s
  else
    let sq : Byte := BitVec.ofNat 8 (fld f.ctl 63 56)
    let good := crc24 f == f.ctl.setWidth 24
    if !good || sq != p.rxSeq then
      let s := bump (0x44010 + (if port then 0 else 0x100)) s
      let s := (List.range (lostCells s p f)).foldl (fun s _ => dropCell s) s
      modPort port (fun p => { p with rxSeq := if good then sq + 1 else p.rxSeq + 1, carry := [], resync := true }) s
    else
      let s := modPort port (fun p => { p with rxSeq := sq + 1, heardAt := s.cclk }) s
      let first := fld f.ctl 55 48
      let kinds := (List.range 24).map fun i => bitAt f.ctl (24 + i)
      if first = 0 && kinds.all id then controlIn port f.bytes s
      else if p.resync then
        if first ≥ 248 then s
        else takeCells port 64 kinds none (f.bytes.drop first) (modPort port (fun p => { p with resync := false, carry := [] }) s)
      else
        let fill := p.carryMaybe && first == 255 && f.bytes.all (· == 0)
        if fill && longCell s (p.carry ++ f.bytes) then modPort port (fun p => { p with carry := p.carry ++ f.bytes }) s
        else
          let begun := !p.carry.isEmpty && !(p.carryMaybe && (first == 0 || fill))
          takeCells port 64 kinds (if begun then some (p.carryKey, p.carry) else none) f.bytes s

/-- CASCADE_FRAME_RECEIVE at the east or the west port (14 R356, R365). -/
def frameRun (port : Bool) (f : Frame) (s : State) : State :=
  if !running s then s
  else
    let (f, h, s) := brxFrame port false f s
    (f.toList ++ h.toList).foldl (fun s f => frameIn port f s) s

/-- A cascade port has trained: its counts restart, and its neighbour is there (14 R353, R355). -/
def portTrained (port : Bool) (pol : Byte) (s : State) : State :=
  if (portOf s port).st ≠ .train then s
  else
    let a := 0x44004 + (if port then 0 else 0x100)
    let (v, s) := if regB s a 21 then draw s else (0, s)
    let geo := fun (s : State) => if s.ring.st = .forming then sendGeometryOn port s else s
    let bit : Byte := if s.ring.st = .forming then (match neighbourOf s port with | some i => BitVec.ofNat 8 (2 ^ i) | none => 0) else 0
    let s := { s with ring := { s.ring with absent := s.ring.absent &&& ~~~bit } }
    portsUp (geo (modPort port (fun p => { p with
      st := .up, pol := pol, heardAt := s.cclk, rxSeq := 0, carry := [], resync := true, upAt := s.cclk, slot := 0, left := [],
      eqUse := if regB s a 21 then some (pack 32 [(fld v 31 28 % 7, 31, 28), (fld v 27 24 % 10, 27, 24), (fld v 20 16 % 13, 20, 16)]) else none }) s))

end Sys2Proof.Machine
end

