-- ==== Sys2Proof/Machine/Store.lean ====
section
/-! DEFINITION. The room of the reply stores and the credits granted from it (05 R130; 14 R347). -/

namespace Sys2Proof.Machine

/-! ### Credits (05 R130; 14 R347) -/

/-- Slots neither reserved, nor pledged, nor occupied (05 Table 5.12, 14 R347). -/
def freeSlots (s : State) (g : Fin 8) : Nat := 4096 - slotsUsed s g - 13 * pledges s.pg[g]

/-- Credits are withheld for want of slots (05 R130). -/
def holdoff (s : State) (g : Fin 8) : Bool := decide (freeSlots s g < 13)

/-- The part waits to enter device DARKROOM, or its reply has not yet left (11 R279). -/
def closing (s : State) : Bool := s.dev.darkReq.isSome || s.replies.any (·.after == .stopClock)

/-- Credits are withheld for whatever reason (07 R178; 14 R347). -/
def withheld (s : State) (g : Fin 8) : Bool :=
  holdoff s g || closing s || ringShort s || s.dev.st != .run || s.pg[g].st != .up

/-- How many more command credits may be granted (14 R347). Log 43 (DEDUCED). -/
def grantable (s : State) (g : Fin 8) : Nat := if withheld s g then 0 else (freeSlots s g - 13) / 13

/-- Ordered replies of port group `g` not yet sent (05 Table 5.12); an ordered search whose reply is not yet built counts. Log 110
(DEDUCED). -/
def orderedLeft (s : State) (g : Fin 8) : Nat :=
  let ap : Ap := ⟨g.val, by omega⟩
  ((srchsOf s ap).filter (·.ord)).length + (s.replies.filter fun r => r.ap == ap && r.ord).length

/-- The hold-off time of each port group is counted up to now, and counts on while the hold-off lasts (05 Table 5.11); done after every
command. Log 40 (DEDUCED). Log 43 (DEDUCED). -/
def settleHold (s : State) : State :=
  if !running s then s
  else (List.range 8).foldl (fun s i =>
    let g := pgn i
    let s := match s.pg[g].holdAt with
      | some n => addStat (0x48008 + i * 0x20) (s.cclk - n) s
      | none => s
    modPg g (fun p => { p with holdAt := if holdoff s g then some s.cclk else none }) s) s

end Sys2Proof.Machine
end

