-- ==== Sys2Proof/Machine/RegRead.lean ====
section
/-! DEFINITION. Reads of the management registers: the fields that the part computes, shadows and clear-on-read views (00 R5, R10; 01 R28-R31;
08 R206 and the register tables of every chapter). -/

namespace Sys2Proof.Machine

/-- The low 32 bits of a number, as a register. -/
def r32 (n : Nat) : Reg := BitVec.ofNat 32 n

/-- SAT flags of counters, flag `i` in bit `i` (00 R10). -/
def satBits (s : State) (l : List (Nat × Nat)) : Reg := r32 (l.foldl (fun n x => n + b2n (satOf s x.1) * 2 ^ x.2) 0)

/-- DEV_ID (01 Table 1.11). -/
def devIdReg (s : State) : Reg := pack 32 [(0x2816, 31, 16), ((gradeCode s.part.grade).toNat, 15, 12), (1, 11, 8), (s.dev.devId.toNat, 2, 0)]

/-- The buffer of the newest valid image: the higher generation (17 R410). -/
def newestImage (s : State) : Option (Bool × Image) :=
  match s.aon.img0, s.aon.img1 with
  | some a, some b => if b.gen > a.gen then some (true, b) else some (false, a)
  | some a, none => some (false, a)
  | none, some b => some (true, b)
  | none, none => none

/-- Version of the active firmware image. -/
def fwVersion (s : State) : BitVec 16 := if s.fw.active then s.fw.ver1 else s.fw.ver0

/-- Device control registers (01 R31; 12 Table 12.11; 17 Table 17.9). -/
def roDev (s : State) (o : Nat) : Reg :=
  let d := s.dev
  match o with
  | 0x0 => devIdReg s
  | 0x100 => pack 32 [(d.cause.toNat, 31, 29), (b2n d.tablesKept, 28, 28), (b2n d.factoryStrap, 27, 27), (b2n d.developed, 26, 26)]
  | 0x104 =>
    let n := newestImage s
    pack 32 [(b2n s.aon.img0.isSome, 31, 31), (b2n s.aon.img1.isSome, 30, 30), (b2n ((n.map (·.1)).getD false), 29, 29),
      (b2n (s.saves.any fun x => x.img.isSome), 28, 28), ((n.map fun x => imageLen s.part.grade x.2).getD 0, 13, 0)]
  | 0x108 => r32 (((newestImage s).map fun x => x.2.gen).getD 0)
  | 0x110 => pack 32 [(b2n s.fw.active, 31, 31), (b2n s.fw.standbyOk, 30, 30), (s.fw.bootSrc.toNat, 29, 28), (b2n s.fw.up, 27, 27),
      (b2n s.fw.switchFailed, 26, 26), ((fwVersion s).toNat, 15, 0)]
  | 0x120 =>
    let f := fun (p : Chan → Bool) (b : Nat) => (List.range 4).foldl (fun n c => n + b2n (p (chan s (leadOf s (chn c)))) * 2 ^ (b + c)) 0
    r32 (f (·.resetting.isSome) 28 + f (·.draining) 24 + f (·.quiesced) 20 + f (·.ready) 16)
  | 0x200 => satBits s [(0x204, 29), (0x20C, 28)]
  | 0x300 => pack 32 [(freeHi s, 30, 16), (freeLo s, 14, 0)]
  | 0x304 => pack 32 [(b2n s.pool.rebuild, 31, 31)] ||| satBits s [(0x318, 2), (0x310, 1), (0x308, 0)]
  | _ => 0

/-- The slew left in signed nanoseconds; a part of a nanosecond is rounded in a way the spec leaves open (08 Table 8.7). -/
def slewNs (s : State) : Reg := BitVec.ofInt 32 (s.tb.slewLeft.tdiv (nsU : Nat))

/-- Time-base registers as master `m` reads them (08 Table 8.7). -/
def roTb (s : State) (m o : Nat) : Reg :=
  let t := s.tb
  let snap := mgetD t.snap m 0
  match o with
  | 0x4 => pack 32 [(b2n t.unset, 31, 31), (b2n t.coarse, 30, 30), (b2n (t.slewLeft != 0), 29, 29), (b2n t.ppsLost, 28, 28),
      (b2n t.setPend.isSome, 27, 27)] ||| satBits s [(0x10048, 26)]
  | 0x20 => r32 (tNs snap)
  | 0x24 => r32 (tSec snap)
  | 0x28 => r32 (tSec snap / 2 ^ 32)
  | 0x2C => r32 (tFrac snap)
  | 0x30 => r32 (tNs t.cap)
  | 0x34 => r32 (tSec t.cap)
  | 0x38 => pack 32 [(t.ppsSeq.toNat, 31, 24), (tSec t.cap / 2 ^ 32, 15, 0)]
  | 0x40 => slewNs s
  | _ => if 0x1000 ≤ o && o % 0x20 = 0x14 then phaseNow s ((o - 0x1000) / 0x20) else 0

/-- Exposure and power registers (11 Tables 11.10, 11.11; 18 Table 18.13). -/
def roXpo (s : State) (o : Nat) : Reg :=
  match o with
  | 0x18 => BitVec.ofInt 32 s.xpo.bal
  | 0x1C => r32 s.xpo.effMw
  | 0x20 => r32 s.xpo.otherMw
  | 0x24 => r32 s.part.rowEu.toNat
  | 0x40 => pack 32 [(b2n s.xpo.deficit, 30, 30)]
  | 0x104 => pack 32 [(s.dev.level.toNat, 31, 30), (b2n s.aon.shut, 29, 29), (s.dev.hot.toNat, 2, 0)]
  | 0x134 => pack 32 [(s.dev.wakeSrc.toNat, 7, 4)]
  | 0x144 => r32 ((List.range 7).foldl (fun n g => n + bgMode s g * 4 ^ g + b2n (s.bgWait.any (·.g == g)) * 2 ^ (14 + g)) 0)
  | 0x150 => pack 32 [((s.pins.vid.getD s.part.vid).toNat, 12, 8), (s.part.vidFused.val, 4, 0)]
  | _ => if 0x110 ≤ o && decide (o < 0x128) then (nth s.dev.temps ((o - 0x110) / 4) 0).setWidth 32 else 0

/-- Protection and region status (16 Table 16.4; 12 Table 12.11). -/
def roProt (s : State) (o : Nat) : Reg :=
  match o with
  | 0x10 => pack 32 [(b2n (factoryState s), 30, 30), (s.prot.props.length, 28, 26)] ||| satBits s [(0x30028, 29)]
  | 0x14 => s.prot.lastId.setWidth 32
  | 0x18 => s.prot.lastDigest
  | 0x2208 => satBits s ((List.range 12).flatMap fun m => [(0x32000 + m * 8, m), (0x32100 + m * 8, 16 + m)])
  | _ => 0

/-- Encoding of a port state (14 Table 14.10). -/
def portCode : PgSt → Nat
  | .down => 0
  | .train => 1
  | .up => 2
  | .drain => 3
  | .lpi => 4

/-- Link, ring, PCIe and breach-test status (14 Table 14.10; 05 Table 5.12; 07 Table 7.9). -/
def roLink (s : State) (o : Nat) : Reg :=
  let a := 0x40000 + (o - o % 0x100)
  if o < 0x800 then
    let p := s.pg[pgn (o / 0x100)]
    if o % 0x100 = 8 then
      pack 32 [(portCode p.st, 31, 29), (p.pol.toNat, 28, 25), (b2n p.laneRev, 24, 24)] |||
        satBits s [(a + 0x10, 20), (a + 0x18, 21), (a + 0x20, 22), (a + 0x28, 23)]
    else 0
  else if 0x4000 ≤ o && decide (o < 0x4200) then
    let p := portOf s (o < 0x4100)
    if o % 0x100 = 8 then pack 32 [(portCode p.st, 31, 29), (p.pol.toNat, 28, 21)] ||| satBits s [(a + 0x10, 20)] else 0
  else if 0x8000 ≤ o && decide (o < 0x8100) then
    let g := pgn ((o - 0x8000) / 0x20)
    if o % 0x20 = 0 then pack 32 [(b2n (holdoff s g), 31, 31), (orderedLeft s g, 28, 16), (freeSlots s g, 12, 0)] else 0
  else match o with
    | 0xA018 => pack 32 [(b2n s.pcie.fetchErr, 31, 31), (s.pcie.sqHead, 16, 0)]
    | 0xA01C => pack 32 [(s.pcie.speed.toNat, 30, 28), (s.pcie.width.toNat, 27, 26)] ||| satBits s [(0x4A020, 24), (0x4A028, 25)]
    | 0xC004 =>
      let r := s.ring
      pack 32 [(ringCode r.st, 26, 24), (if r.st = .off then 0 else (ringMembers s &&& ~~~r.live).toNat, 23, 16), (r.live.toNat, 15, 8),
        (r.hops, 4, 0)] ||| satBits s [(0x4C020, 31), (0x4C028, 30)]
    | 0xE000 => maskOf 32 10 fun t => (s.brx[brxN t]).action != 0
    | _ => 0

/-- Key-builder SAT flags (04 R114). -/
def roKb (s : State) (o : Nat) : Reg :=
  if o = 0x1300 then
    satBits s ((List.range 4).flatMap fun c => (List.range 6).map fun k => (0x51200 + c * 0x40 + (k + 1) * 4, c * 8 + k + 1))
  else 0

/-- Stream-engine SAT flags (09 Table 9.10). -/
def roSe (s : State) (o : Nat) : Reg :=
  if o = 0x10 then satBits s ((List.range 4).flatMap fun l => [(0x60108 + l * 0x20, 2 * l), (0x60110 + l * 0x20, 2 * l + 1)]) else 0

/-- State code of a spillway bank (10 Table 10.11). -/
def bankCode : BankSt → Nat
  | .empty => 0
  | .fill => 1
  | .ready => 2

/-- Queue status (10 Table 10.11). -/
def roQ (s : State) (o : Nat) : Reg :=
  match o with
  | 0x8 => satBits s [(0x71008, 2), (0x70028, 1), (0x70020, 0)]
  | 0x1004 =>
    let m := s.qm
    pack 32 [(bankCode m.bankA.st, 31, 30), (bankCode m.bankB.st, 29, 28), (m.bankA.words - m.bankA.taken, 27, 14),
      (m.bankB.words - m.bankB.taken, 13, 0)]
  | 0x2020 => maskOf 32 8 fun g => sluiceHold s g
  | _ => 0

/-- Integrity status (13 Table 13.14). Log 46 (DEDUCED). -/
def roEcc (s : State) (o : Nat) : Reg :=
  let r := mget s.log.recs (regF s 0x80200 7 0)
  let w := fun (f : LogRec → Word) => (r.map f).getD 0
  match o with
  | 0x8 => satBits s ((0x8000C, 26) :: (List.range 13).flatMap fun m => [(0x80100 + m * 0x10, 2 * m), (0x80108 + m * 0x10, 2 * m + 1)])
  | 0x204 => pack 32 [(s.log.ovr, 31, 16), (s.log.head, 7, 0)]
  | 0x208 => (w (·.w0)).setWidth 32
  | 0x20C => (w (·.w0) >>> 32).setWidth 32
  | 0x210 => (w (·.w1)).setWidth 32
  | 0x214 => (w (·.w1) >>> 32).setWidth 32
  | 0x300 => r32 ((List.range 4).foldl (fun n c => n + (chan s (chn c)).bad.length * 256 ^ c) 0)
  | 0x2020 => match s.sramProof with
    | some p => pack 32 [(1, 31, 31), (p.page, 19, 0)]
    | none => 0
  | _ =>
    if 0x1040 ≤ o && decide (o < 0x1050) then (mgetD s.stat (0x80000 + o) 0).setWidth 32
    else if 0x2010 ≤ o && decide (o < 0x2020) then
      let c := (o - 0x2010) / 4
      let k := chan s (chn c)
      let ph := match k.proof with
        | some r => min r.phase 6
        | none => if k.heldBlk.isSome then 7 else 0
      pack 32 [(ph, 31, 28), (b2n (repairUsed k), 27, 27), ((k.lastBlk.map fun b => (Config.blockId c b).toNat).getD 0, 15, 0)]
    else if 0x2040 ≤ o && decide (o < 0x2080) then r32 (remapsUsed s ((o - 0x2040) / 4))
    else 0

/-- State code of a partition (06 Table 6.16). -/
def negCode : NegSt → Nat
  | .steady => 0
  | .opened => 1
  | .pend => 2
  | .fixing => 3
  | .washing => 4

/-- Channel status (02 Tables 2.11, 2.12; 03 Tables 3.4, 3.16, 3.17; 05 Tables 5.9, 5.10; 06 Tables 6.16, 6.18; 11 Table 11.13).
Log 46 (DEDUCED). -/
def roChan (s : State) (c : Chn) (o : Nat) : Reg :=
  let k := chan s c
  let l := leadOf s c
  let a := fun x => chAddr c x
  if o < 0x400 then (if o % 0x10 = 8 then r32 (entryCount s l (o / 0x10)) else 0)
  else if 0x5000 ≤ o && decide (o < 0x5100) then
    let p := (o - 0x5000) / 4
    let x := partOf s l p
    pack 32 [(if cfgOn (cfgOf s l p) then (singles s l p).length else 0, 24, 4), (b2n x.live, 3, 3), (negCode x.st, 2, 0)]
  else match o with
    | 0x2004 => pack 32 [(b2n (!k.forced.isEmpty), 1, 1), (b2n k.rebuildBusy, 0, 0)] ||| satBits s [(a 0x2030, 2)]
    | 0x2008 => s.part.blockEu[c].setWidth 32
    | 0x3000 => satBits s [(a 0x3008, 31)]
    | 0x3004 => r32 (freeBlocks s l)
    | 0x4000 => r32 (inFlight (giveDue s) c)
    | 0x4004 => satBits s [(a 0x4018, 2), (a 0x4010, 1), (a 0x4008, 0)]
    | 0x5104 => pack 32 [(b2n (stampBusy s l s.cclk), 8, 8), ((chan s l).stamp.toNat, 7, 0)] ||| satBits s [(a 0x5118, 31)]
    | 0x6008 =>
      let p := pwrOf s c
      let (tr, wk, wi, ri) := holdBits s c
      pack 32 [(pwrCode p.st, 31, 30), (b2n p.waking.isSome, 29, 29), ((heldOf s c).length, 25, 16), (b2n ri, 3, 3), (b2n wi, 2, 2),
        (b2n wk, 1, 1), (b2n tr, 0, 0)] ||| satBits s [(a 0x6038, 26), (a 0x6040, 27), (a 0x6048, 28)]
    | _ => 0

/-- The fields of the register at `a` that the part computes, as master `m` reads them. -/
def roBits (s : State) (m a : Nat) : Reg :=
  let o := a % 0x10000
  match a / 0x10000 with
  | 0x0 => roDev s o
  | 0x1 => roTb s m o
  | 0x2 => roXpo s o
  | 0x3 => roProt s o
  | 0x4 => roLink s o
  | 0x5 => roKb s o
  | 0x6 => roSe s o
  | 0x7 => roQ s o
  | 0x8 => roEcc s o
  | 0x9 => 0
  | _ => if 0x100000 ≤ a && decide (a < 0x200000) then roChan s (chn ((a - 0x100000) / 0x40000)) (a % 0x40000) else 0

/-- The equalisation in use where the register at `a` shows it (14 R342). -/
def eqShown (s : State) (a : Nat) : Option Reg :=
  if 0x40000 ≤ a && decide (a < 0x40800) && a % 0x100 = 4 then (s.pg[pgn ((a - 0x40000) / 0x100)]).eqUse
  else if a = 0x44004 then s.ring.east.eqUse.map fun v => v ||| (getReg s a &&& ones 21 21)
  else if a = 0x44104 then s.ring.west.eqUse.map fun v => v ||| (getReg s a &&& ones 21 21)
  else none

/-- Stored bits that the register at `a` holds in state of its own and not among the stored registers. -/
def ownBits (a : Nat) : Reg :=
  if a = 0x110 then ones 31 31 ||| ones 26 26 else if a = 0x20104 then ones 29 29
  else if 0x100000 ≤ a && a % 0x40000 = 0x5104 then ones 7 0 else 0

/-- The value of the register at `a` as master `m` reads it, without the effects of the read. -/
def regValue (s : State) (m a : Nat) (i : RegInfo) : Reg :=
  match i.kind with
  | .fields => ((eqShown s a).getD (getReg s a) &&& ~~~(i.wo ||| ownBits a)) ||| roBits s m a
  | .cnt => getCnt s a
  | .rc b => getCnt s b
  | .statLo => (mgetD s.stat a 0).setWidth 32
  | .statHi => mgetD s.shadow (m * 2 ^ 32 + a - 4) ((mgetD s.stat (a - 4) 0 >>> 32).setWidth 32)

/-- What a read of the register at `a` by master `m` does: a snapshot of T, a shadow of the high word, or a clear (00 R5; 01 R30; 08 R206;
05 Table 5.13). -/
def readEffect (m a : Nat) (i : RegInfo) (s : State) : State :=
  match i.kind with
  | .fields =>
    if a = 0x10020 then { s with tb := { s.tb with snap := mset s.tb.snap m s.tb.t } }
    else if 0x48000 ≤ a && decide (a < 0x48100) && a % 0x20 = 4 then setReg a 0 s
    else s
  | .rc b => { s with cnt := mdel s.cnt b }
  | .statLo => { s with shadow := mset s.shadow (m * 2 ^ 32 + a) ((mgetD s.stat a 0 >>> 32).setWidth 32) }
  | _ => s

/-- Master `m` reads the register at `a`; none where 01 R28 refuses the address. Log 91 (DEDUCED). -/
def regRead (m a : Nat) (s : State) : Option (Reg × State) :=
  match regInfo s.part.grade a with
  | none => none
  | some i =>
    let s := settleHold (settleXpo s.cclk s)
    let v := fun (s : State) => regValue s m a i
    if a = 0x10020 then let s := readEffect m a i s; some (v s, s) else some (v s, readEffect m a i s)

end Sys2Proof.Machine
end

