-- ==== Sys2Proof/Machine/Port.lean ====
section
/-! DEFINITION. Port-group states and the PCIe rings as writes, resets and losses move them (14 R347-R354, R359-R363). -/

namespace Sys2Proof.Machine

/-! ### Port groups (14 R353, Table 14.5) -/

/-- Access point of port group `g`. -/
def pgAp (g : Fin 8) : Ap := ⟨g.val, by omega⟩

/-- Register of port group `g` at offset `o` (14 R368). -/
def pgReg (g : Fin 8) (o : Nat) : Nat := 0x40000 + g.val * 0x100 + o

/-- The group goes to TRAIN: flits under way and packets received in part are lost. -/
def toTrain (g : Fin 8) (s : State) : State := modPg g (fun p => { p with st := .train, rx := [], ovr := false, replay := [], resync := false, lost := none }) s

/-- Equalisation that training finds: values within the ranges of 14 Table 14.2, which the spec leaves open. Log 17 (DESIGN CHOICE). -/
def trainedEq (tmode : Bool) (s : State) : Reg × State :=
  let (v, s) := draw s
  let m := fun (hi lo n : Nat) => fld v hi lo % n
  (if tmode then pack 32 [(m 15 0 9, 31, 28), (m 31 16 7, 27, 24), (m 47 32 21, 20, 16)]
   else pack 32 [(m 15 0 7, 31, 28), (m 31 16 10, 27, 24), (m 47 32 13, 20, 16)], s)

/-- A link starts anew: slot numbers, sequence numbers, credits and heartbeats at zero (14 R344, R347, R352). Log 42 (DEDUCED). -/
def freshLink (n : Nat) (p : Pg) : Pg :=
  { p with
    slot := 0, txSeq := 0, rxSeq := 0, hb := 0, hostCrd := 0, txNum := 0, rxNum := 0, cmdGrant := 0, cmdNum := 0, flitGrant := 0,
    replay := [], nakSend := false, nakEpisode := false, rx := [], ovr := false, resync := false, lost := none, episodes := 0, ackAt := n, hbAt := n }

/-- TRAINING_COMPLETE of a port group: the findings of training, and the mode and equalisation that `retrain` took or that the registers
hold (14 R341, R342, R353, R354). Log 17 (DESIGN CHOICE). -/
def pgTrained (g : Fin 8) (pol : BitVec 4) (rev : Bool) (s : State) : State :=
  if s.pg[g].st ≠ .train then s
  else
    let (md, eq) := (s.pg[g].next).getD (regB s (pgReg g 0) 30, getReg s (pgReg g 4))
    let (eq, s) := if regB s (pgReg g 0) 28 then trainedEq md s else (eq, s)
    modPg g (fun p => { freshLink s.cclk p with st := .up, pol := pol, laneRev := rev, eqUse := some eq, tmode := md, next := none }) s

/-- A write of `enable` (14 R353). -/
def setEnable (g : Fin 8) (on : Bool) (s : State) : State :=
  if on then (if s.pg[g].st = .down then toTrain g s else s)
  else modPg g (fun p => { p with st := .down, rx := [], ovr := false, replay := [], next := none }) s

/-- A write of 1 to `retrain`: in UP the group drains, with the mode and equalisation of this CCLK (14 R354). -/
def startDrain (g : Fin 8) (s : State) : State :=
  if s.pg[g].st = .up then
    modPg g (fun p => { p with st := .drain, drainAt := s.cclk, next := some (regB s (pgReg g 0) 30, getReg s (pgReg g 4)) }) s
  else s

/-- A write of CLP_PG_EQ: a drain that began in the same write cycle takes it (14 R354). -/
def takeEq (g : Fin 8) (s : State) : State :=
  if s.pg[g].st = .drain && s.pg[g].drainAt = s.cclk then
    modPg g (fun p => { p with next := p.next.map fun x => (x.1, getReg s (pgReg g 4)) }) s
  else s

/-- DRAIN_END: nothing is owed to the group and its receive buffer is empty (14 R353). -/
def drainEndRun (g : Fin 8) (s : State) : State :=
  if s.pg[g].st = .drain && !owes s (pgAp g) && s.pg[g].rx.isEmpty then toTrain g s else s

/-- The replies that access point `ap` is owed now are to be discarded (14 R351, R363). Log 41 (DEDUCED). -/
def discardOwed (ap : Ap) (s : State) : State :=
  if h : ap.val < 8 then modPg ⟨ap.val, h⟩ (fun p => { p with discardTo := s.nextId }) s
  else { s with pcie := { s.pcie with discardTo := s.nextId } }

/-- The held pushes of a port group complete without storing their items (14 R351); their replies are among those discarded. -/
def dropPushes (ap : Ap) (s : State) : State :=
  let (mine, rest) := s.qm.held.partition fun h => h.cmd.wq.isNone && h.cmd.p.ap == ap
  mine.foldl (fun s h => refuse h.cmd stFull s) { s with qm := { s.qm with held := rest } }

/-- HOST_LOSS: no heartbeat for `hb_to` x 0.5 us (14 R351). Log 41 (DEDUCED). -/
def hostLossRun (g : Fin 8) (s : State) : State :=
  let p := s.pg[g]
  if !(p.st = .up || p.st = .drain) || s.dev.st != .run then s
  else
    let s := advanceTo (p.hbAt + regF s (pgReg g 0) 21 16 * cclkPerUs s.part.grade / 2) s
    dropPushes (pgAp g) (discardOwed (pgAp g) (toTrain g (bump (pgReg g 0x28) s)))

/-- GROUP_REALIGNED: a group that a wake brought out of LPI starts its numbers at zero, without retraining (14 R352). -/
def groupRealignedRun (g : Fin 8) (s : State) : State :=
  if s.pg[g].st = .lpi && s.dev.st != .darkroom then modPg g (fun p => { freshLink s.cclk p with st := .up }) s else s

/-- REALIGN_TIMEOUT: a group still in LPI 200 us after the wake goes to TRAIN (14 R352). -/
def realignTimeoutRun (g : Fin 8) (s : State) : State :=
  if s.pg[g].st = .lpi && s.dev.st != .darkroom then toTrain g s else s

/-! ### The PCIe rings (14 R360-R363) -/

def sqSize (s : State) : Nat := 2 ^ regF s 0x4A010 28 24
def cqSize (s : State) : Nat := 2 ^ regF s 0x4A010 20 16

/-- Words of the completion ring that hold no unread word. -/
def cqFree (s : State) : Nat :=
  let n := cqSize s
  n - (s.pcie.cqW + 2 * n - s.pcie.cqHead) % (2 * n)

/-- The rings begin anew: head, write index and phase (14 R363). The host's indexes begin with them. -/
def ringsFresh (s : State) : State :=
  { s with pcie := { s.pcie with
    sqHead := 0, sqTail := 0, cqHead := 0, cqW := 0, phase := true, fetchErr := false, markers := 0, oldest := none } }

/-- The completion ring requests its vector, and counts its markers anew (14 R362). -/
def cqRequest (s : State) : State :=
  { s with pcie := { s.pcie with reqs := s.pcie.reqs ++ [regF s 0x4A010 13 8], markers := 0, oldest := none } }

/-- The completion ring requests when it may and `coal_n` markers wait (14 R362). -/
def cqJudge (s : State) : State :=
  if regB s 0x4A010 29 && s.pcie.markers != 0 && decide (s.pcie.markers ≥ regF s 0x4A010 7 0) then cqRequest s else s

/-- A write of PCIE_RING_CTL has been stored over `old` (14 R363): setting `sq_en` or `cq_en` enables the rings, and a write of `sq_en` lets
fetching go on after an error; the completion ring is judged anew (R362). Log 44 (DEDUCED). -/
def ringCtlStored (old : Reg) (s : State) : State :=
  let new := getReg s 0x4A010
  if (bitAt new 31 && !bitAt old 31) || (bitAt new 30 && !bitAt old 30) then ringsFresh s
  else cqJudge { s with pcie := { s.pcie with fetchErr := false } }

/-- FLR and link-down: fetching stops, replies owed are discarded, the ring registers clear (14 R363). Log 19 (PRESUMED). Log 44
(DEDUCED). -/
def clearRings (s : State) : State :=
  let s := [0x4A000, 0x4A004, 0x4A008, 0x4A00C, 0x4A010, 0x4A014].foldl (fun s a => setReg a (regFac s.part.grade a) s) s
  discardOwed 8 { ringsFresh s with pcie := { (ringsFresh s).pcie with owed := 0, cq := [] } }

/-- FUNCTION_LEVEL_RESET (14 R363): the MSI-X table is masked again, as PCI Express sets. Log 19 (PRESUMED). -/
def flrRun (s : State) : State :=
  let s := clearRings s
  { s with pcie := { s.pcie with mask := BitVec.allOnes 64, pba := 0, vecs := [], reqs := [] } }

/-- PCIE_LINK_DOWN (14 R363). -/
def linkDownRun (s : State) : State :=
  let s := flrRun s
  { s with pcie := { s.pcie with up := false, speed := 0, width := 0 } }

/-- PCIE_LINK_UP: training is complete at a speed and width of Table 14.8 (14 R359). -/
def linkUpRun (speed : BitVec 3) (width : BitVec 2) (s : State) : State :=
  let ok := decide (1 ≤ speed.toNat) && decide (speed.toNat ≤ 4) && decide (1 ≤ width.toNat) && decide (width.toNat ≤ 2)
  if ok && s.dev.st == .run then { s with pcie := { s.pcie with up := true, speed := speed, width := width } } else s

/-- DB_SQ_TAIL: the word index just beyond the commands, k + 1 bits wide (14 R360). -/
def dbSqTailRun (v : Reg) (s : State) : State :=
  if !running s || !s.pcie.up then s else { s with pcie := { s.pcie with sqTail := v.toNat % (2 * sqSize s) } }

/-- DB_CQ_HEAD: the index of the next unread marker (14 R361). -/
def dbCqHeadRun (v : Reg) (s : State) : State :=
  if !running s || !s.pcie.up then s else { s with pcie := { s.pcie with cqHead := v.toNat % (2 * cqSize s) } }

end Sys2Proof.Machine
end

