-- ==== Sys2Proof/Machine/RegWrite.lean ====
section
/-! DEFINITION. Writes of the management registers: access codes, the rules that refuse a write, what a write does besides, and where a
refusal is recorded (00 R5-R8; 01 R28, R29, R443; the register rules of every chapter). -/

namespace Sys2Proof.Machine

/-- The path a register write comes by: the PCIe memory window, MGMT_WR, boundary scan, or a countersigned change set. -/
inductive Via where
  | window | mgmt | scan | change
  deriving DecidableEq, Repr

/-! ### Ranges and conditions -/

/-- Device control and time base (06 R164; 08 R207). -/
def badDevTb (a : Nat) (new : Reg) : Bool :=
  if a = 0x40 then decide (fld new 9 0 > 1000)
  else if a = 0x10000 then decide (fld new 28 24 > 16)
  else if a = 0x10014 then fld new 19 0 == 0 || decide (fld new 19 0 > 999999)
  else false

/-- Words of bank group `g`'s memory (11 Table 11.7). -/
def bgWords (g : Nat) : Nat × Nat :=
  if g < 4 then (g * 0x80000, (g + 1) * 0x80000) else if g = 4 then (0x280000, poolBase)
  else if g = 5 then (0x340000, ralemBase) else (mboxBase, spillBase)

/-- Something in bank group `g` keeps it ON (11 Table 11.7). -/
def bgUsed (s : State) (g : Nat) : Bool :=
  if g < 4 then
    let (lo, hi) := bgWords g
    s.sram.any fun x => decide (lo ≤ x.1) && decide (x.1 < hi) && x.1 % 8 == 0 &&
      (let v := (decodeWord x.2).1; bitAt v 63 || bitAt v 0)
  else if g = 4 then overlaps s 524288 524288 1 0
  else if g = 5 then s.pool.tags.any fun t => decide (t.1 ≥ 16384) && t.2.count != 0
  else false

/-- A write of PWR_BG_CTL that 11 R281 refuses. -/
def badBg (s : State) (new : Reg) : Bool :=
  (List.range 7).any fun g =>
    let m := fld new (2 * g + 1) (2 * g)
    m == 3 || (m == 2 && g != 4 && g != 5) || (m != 0 && m != bgMode s g && bgUsed s g)

/-- Exposure and power (11 R270, R278, R285). -/
def badXpo (s : State) (a : Nat) (new : Reg) : Bool :=
  let v := fun x => if x = a then new.toNat else (getReg s x).toNat
  if a ≤ 0x20010 then xpoBad (v 0x20000) (v 0x20004) (v 0x20008) (v 0x2000C) (v 0x20010)
  else if a = 0x20028 then fld new 31 24 == 0 || fld new 4 0 == 0 || decide (fld new 4 0 > 16)
  else if a = 0x2002C then fld new 6 0 == 0 || decide (fld new 6 0 > 64)
  else if a = 0x20100 then
    let h := fld new 23 16
    decide (h < 85) || decide (h > 120) || decide (fld new 15 8 < 60) || decide (fld new 15 8 ≥ h) || fld new 3 0 == 0
  else if a = 0x20140 then badBg s new
  else false

/-- An equalisation register out of the ranges of 14 Table 14.2. -/
def badEq (tmode : Bool) (new : Reg) : Bool :=
  let (a, b, c) := if tmode then (8, 6, 20) else (6, 9, 12)
  decide (fld new 31 28 > a) || decide (fld new 27 24 > b) || decide (fld new 20 16 > c)

/-- Links and ring (07 R186; 14 R354, R358, R363, R368). `v` is the value written, `new` what it would leave. -/
def badLink (s : State) (a : Nat) (old new v : Reg) : Option Byte :=
  let bad := fun (b : Bool) => if b then some stBadArg else none
  if a < 0x40800 then
    let g := pgn ((a - 0x40000) / 0x100)
    if a % 0x100 = 0 then
      bad (fld new 21 16 == 0 || decide (fld new 21 16 > 32) || (bitAt new 30 != bitAt old 30 && s.pg[g].st = .up && !bitAt v 29))
    else if a % 0x100 = 4 then bad (badEq (regB s (a - 4) 30) new) else none
  else if a = 0x44004 || a = 0x44104 then bad (badEq false new)
  else if a = 0x4A010 then
    if bitAt new 31 && !bitAt new 30 then some stDenied
    else bad (decide (fld new 28 24 < 9) || decide (fld new 28 24 > 16) || decide (fld new 20 16 < 9) || decide (fld new 20 16 > 16) || fld new 7 0 == 0)
  else if a = 0x4C000 then
    bad ((bitAt old 31 && fld new 15 8 != fld old 15 8) ||
      (bitAt new 31 && (!bitAt new (8 + s.dev.devId.toNat) || decide (((bitsOf new).filter fun i => decide (8 ≤ i) && decide (i < 16)).length < 2))))
  else if 0x4C010 ≤ a && decide (a ≤ 0x4C01C) then bad (regB s 0x4C000 31)
  else none

/-- `next` of 04 Table 4.10 is reserved. -/
def nextRsv (n : Nat) : Bool := decide (32 ≤ n) && decide (n ≤ 61)

/-- Template `t` does not meet 04 R102 with `new` in its KB_TPL_LEN. -/
def tplBad (s : State) (t : Nat) (new : Reg) : Bool :=
  let r := fun o => getReg s (0x50000 + t * 0x80 + o)
  (List.range 4).any (fun n => bitAt (r (0x10 + 4 * n)) 31 && nextRsv (fld (r (0x10 + 4 * n)) 21 16)) || nextRsv (fld (r 4) 21 16) ||
    (!bitAt new 30 && fld new 12 5 == 0) ||
    (List.range 16).any fun n =>
      let f := r (0x40 + 4 * n)
      bitAt f 31 && (fld f 30 28 == 7 || decide (fld f 9 0 + fld f 17 13 + 1 > 640) ||
        decide (8 * fld f 27 21 + fld f 20 18 + fld f 17 13 + 1 > 1024))

/-- Key builder (04 R98, R102, R103). -/
def badKb (s : State) (a : Nat) (old new : Reg) : Bool :=
  if a < 0x51000 then
    let t := (a - 0x50000) / 0x80
    let o := a % 0x80
    let valid := regB s (a - o) 31
    if o = 0 then
      if valid then (old &&& ~~~(ones 31 31)) != (new &&& ~~~(ones 31 31)) else bitAt new 31 && tplBad s t new
    else if 0x10 ≤ o && decide (o < 0x20) then valid && bitAt new 31 && nextRsv (fld new 21 16)
    else valid && old != new
  else if a < 0x51040 then
    let raws := ((List.range 16).filter fun c => if 0x51000 + 4 * c = a then bitAt new 31 else regB s (0x51000 + 4 * c) 31).length
    decide (fld new 23 20 ≥ 13) || decide (raws > 8)
  else false

/-- Stream engine (09 R210, R220, R233). -/
def badSe (s : State) (a : Nat) (old new : Reg) : Bool :=
  if a = 0x60000 then decide (fld new 12 0 < 16) || fld new 19 14 == 0 || fld new 27 20 == 0
  else if a = 0x60004 then decide (fld new 22 18 > 18) || decide (fld new 17 0 + 262143 / 2 ^ fld new 22 18 > 262143)
  else if 0x60400 ≤ a && decide (a < 0x60600) then
    profOn (getReg s (profReg ((a - 0x60400) / 4) 0)) || decide (fld new 28 19 > 624) || decide (fld new 18 9 > 624)
  else if 0x61000 ≤ a && decide (a < 0x62000) && a % 0x10 = 0xC then bitAt new 31 && regF s (a - 0xC) 23 0 == 0
  else if 0x64000 ≤ a then
    (bitAt old 31 && (old &&& ~~~(ones 31 31)) != (new &&& ~~~(ones 31 31))) ||
      bitAt new 31 && (!cygOn s (fld new 30 27) || !gclRising s ((a - 0x64000) / 4) (fld new 5 0) 0 [])
  else false

/-- Queues (10 R261). -/
def badQ (a : Nat) (new : Reg) : Bool :=
  if a = 0x70000 then fld new 15 0 == 0
  else if 0x70100 ≤ a && decide (a < 0x70200) && a % 0x10 = 8 then fld new 28 27 == 3
  else if a = 0x71000 then fld new 28 27 == 3 || decide (fld new 13 0 > 8192)
  else if 0x72000 ≤ a && decide (a < 0x72020) then decide (fld new 15 0 > 32768)
  else false

/-- Profiles (03 R70, R71; 14 R358): the condition that fails, 0 where it is no condition of R70. A write that disables a cascaded profile
while the ring is enabled is refused, as R358 has it, though R71 lets every such write succeed. Log 107 (DEDUCED). -/
def badProf (s : State) (a : Nat) (old new : Reg) : Option Nat :=
  if a ≥ 0x92000 then none
  else
    let p := (a - 0x90000) / 0x40
    let o := a % 0x40
    let on := profOn (getReg s (profReg p 0))
    if regB s 0x4C000 31 && profCasc s p && old != new then some 0
    else if o = 0 then
      if on then (if bitAt new 31 && old != new then some 0 else none)
      else if bitAt new 31 then
        profBad s new (getReg s (profReg p 4)) (getReg s (profReg p 8)) ((List.range (profN new)).map fun j => getReg s (profReg p (0x10 + 4 * j)))
      else none
    else if on && old != new then some 0 else none

/-- Channel registers (03 R392 range of `owner`; 06 R166, R167; 11 R276, R278, R285). A CH_PRE_CTL write with `en` = 0 may name a disabled
generator. Log 118 (DESIGN CHOICE). -/
def badChan (s : State) (c : Chn) (o : Nat) (new v : Reg) : Bool :=
  if o < 0x400 then o % 0x10 == 0xC && fld new 1 0 == 3
  else if o = 0x5100 then decide (fld new 5 0 < 8)
  else if o = 0x5104 then
    let k := chan s (leadOf s c)
    v.setWidth 8 != k.stamp && !(isLead s c && k.quiesced && (List.range 64).all fun p => (partOf s c p).st == .steady)
  else if o = 0x6000 then decide (fld new 15 0 < 16) || (bitAt new 31 && decide (fld new 29 28 ≥ 2))
  else if o = 0x6004 then fld new 31 16 == 0 || fld new 15 0 == 0
  else if o = 0x600C then decide (fld new 10 0 > 1024)
  else if 0x6010 ≤ o && decide (o < 0x6030) then
    let ctl := if o % 8 = 0 then new else getReg s (chAddr c (o - 4))
    let ph := if o % 8 = 0 then getReg s (chAddr c (o + 4)) else new
    bitAt ctl 31 && (fld ph 31 16 == fld ph 15 0 || (o % 8 == 0 && !cygOn s (fld ctl 30 27)))
  else false

/-- PROT_PROVISION (16 R394): the refusal of a write of `v` by master `m`. -/
def provisionBad (s : State) (m : Nat) (v : Reg) : Option Byte :=
  firstBad [(decide (m < 8) || !factoryState s, stDenied),
    (fld v 8 0 == 0 || fld v 24 16 == 0 || fld v 8 0 &&& fld v 24 16 != 0, stBadArg)]

/-- The status that refuses a write by the register's own rules, and the condition of 03 R70 that failed. -/
def ownRule (s : State) (m a : Nat) (old new v : Reg) : Option (Byte × Nat) :=
  let bad := fun (b : Bool) => if b then some (stBadArg, 0) else none
  match a / 0x10000 with
  | 0x0 => bad (badDevTb a new)
  | 0x1 => bad (badDevTb a new)
  | 0x2 => bad (badXpo s a new)
  | 0x3 =>
    if a = 0x3000C then (provisionBad s m v).map (·, 0)
    else if a = 0x30008 then bad (fld new 9 0 == 0 || decide (fld new 9 0 > 1000)) else none
  | 0x4 => if 0x4A000 ≤ a && decide (a ≤ 0x4A014) && m != 8 then some (stDenied, 0) else (badLink s a old new v).map (·, 0)
  | 0x5 => bad (badKb s a old new)
  | 0x6 => bad (badSe s a old new)
  | 0x7 => bad (badQ a new)
  | 0x8 => bad (a == 0x82000 && fld new 15 0 == 0)
  | 0x9 => (badProf s a old new).map (stBadArg, ·)
  | _ => bad (badChan s (chn ((a - 0x100000) / 0x40000)) (a % 0x40000) new v)

/-! ### Effects -/

/-- Bank group `g` goes to mode `m` from the mode it is in; a mode other than ON ends a return to ON that a write began (11 R281). -/
def setBg (g m : Nat) (s : State) : State :=
  if m = 0 then (if bgMode s g = 0 || s.bgWait.any (·.g == g) then s else waitBg g none s)
  else
    let was := bgMode s g
    let s := { s with bgCur := mset s.bgCur g m, bgWait := s.bgWait.filter fun w => !(w.g == g && w.cmd.isNone) }
    if m != 2 || was = 2 then s
    else
      let (lo, hi) := bgWords g
      let s := clearMem lo hi s
      if g = 5 then { s with pool := { s.pool with hi := ⟨16384, 32767, 16384⟩ } } else s

/-- An accepted write of `stamp`: the value is current and every other is unissued (06 R167). -/
def setStamp (c : Chn) (v : Byte) (s : State) : State :=
  if (chan s (leadOf s c)).stamp = v then s
  else modChan c (fun k => { k with stamp := v, stamps := mset [] v.toNat ⟨0, 0⟩ }) s

/-- Port class `k` had the value `old` before a write in this CCLK (04 R98). -/
def notePcls (k : Nat) (old : Reg) (s : State) : State :=
  match mget s.pclsWas k with
  | some (n, _) => if n = s.cclk then s else { s with pclsWas := mset s.pclsWas k (s.cclk, old) }
  | none => { s with pclsWas := mset s.pclsWas k (s.cclk, old) }

/-- The value of a template register before a write in this CCLK is kept while a snippet handed over by now is still to be walked (04
R103). -/
def noteTpl (a : Nat) (old : Reg) (s : State) : State :=
  match (s.searches.filterMap fun q => match q.stage with | .snippet d => some d | _ => none).min? with
  | none => if s.tplWas.isEmpty then s else { s with tplWas := [] }
  | some d =>
    let l := s.tplWas.filter fun x => decide (d ≤ x.2.1)
    { s with tplWas := if d ≤ s.cclk then l ++ [(a, s.cclk, old)] else l }

/-- What a write of the register at `a` does besides storing its bits; `old` is the register before, `v` the value written. -/
def writeEffect (a : Nat) (old v : Reg) (s : State) : State :=
  let new := getReg s a
  match a / 0x10000 with
  | 0x0 => if a = 0x110 && bitAt v 26 then { s with fw := { s.fw with switchFailed := false } } else s
  | 0x1 =>
    if a = 0x10000 then
      let s := if bitAt new 31 && !bitAt old 31 then { s with tb := { s.tb with ppsRef := s.tb.t } } else s
      if bitAt new 29 then s else { s with tb := { s.tb with ppsOutEnd := none } }
    else s
  | 0x2 =>
    if a = 0x20000 || a = 0x20004 then setEff s
    else if a = 0x20104 && bitAt v 29 then { s with aon := { s.aon with shut := false } }
    else if a = 0x20140 then (List.range 7).foldl (fun s g => setBg g (fld new (2 * g + 1) (2 * g)) s) s
    else s
  | 0x4 =>
    if a < 0x40800 && a % 0x100 = 0 then
      let g := pgn ((a - 0x40000) / 0x100)
      let s := if bitAt new 31 != bitAt old 31 then setEnable g (bitAt new 31) s else s
      if bitAt v 29 then startDrain g s else s
    else if a < 0x40800 && a % 0x100 = 4 then takeEq (pgn ((a - 0x40000) / 0x100)) s
    else if a = 0x4A010 then ringCtlStored old s
    else if a = 0x4C000 then
      let s := if bitAt new 31 && !bitAt old 31 then startRing s else if !bitAt new 31 && bitAt old 31 then stopRing s else s
      if bitAt v 30 then rejoinRun s else s
    else if a = 0x4E000 && !bitAt new 31 then stopBreach s
    else s
  | 0x5 => if a < 0x51000 then noteTpl a old s else if a < 0x51040 then notePcls ((a - 0x51000) / 4) old s else s
  | 0x6 =>
    if a = 0x60000 && fld new 12 0 != fld old 12 0 then { s with bgAt := s.cclk + 1 }
    else if a = 0x60008 then { s with wdNext := fld new 17 0, wdAt := s.cclk + 1 }
    else if a = 0x6000C then { s with wdNext := regF s 0x60008 17 0, wdAt := s.cclk + 1 }
    else s
  | 0x7 => if 0x70100 ≤ a && decide (a < 0x70200) then settleClass ((a - 0x70100) / 0x10) s else s
  | 0x8 =>
    if a = 0x82000 && bitAt new 31 && !bitAt old 31 then
      (List.range 4).foldl (fun s i => modChan (chn i) (fun k => { k with nextAuto := s.cclk + fld new 15 0 * 1000 * cclkPerUs s.part.grade }) s) s
    else s
  | _ =>
    if a < 0x100000 then s
    else
      let c := chn ((a - 0x100000) / 0x40000)
      match a % 0x40000 with
      | 0x2000 => if bitAt v 1 then rebuildRun c s else s
      | 0x5104 => setStamp c (v.setWidth 8) s
      | 0x6000 => if fld new 29 28 != fld old 29 28 then modPwr c (fun p => { p with atOnce := false }) s else s
      | _ => s

/-- Stores a register: an owner in every member of the group (03 Table 3.3), any other in its place. -/
def storeReg (a : Nat) (new : Reg) (s : State) : State :=
  let o := a % 0x40000
  if 0x100000 ≤ a && decide (o < 0x400) then setPartReg (leadOf s (chn ((a - 0x100000) / 0x40000))) (o / 0x10) (o % 0x10) new s else setReg a new s

/-- The first binding of the authorities (16 R394). -/
def provision (v : Reg) (s : State) : State :=
  addStat 0x30020 1 (setReg 0x30000 (r32 (fld v 8 0)) (setReg 0x30004 (r32 (fld v 24 16)) s))

/-! ### Refusals (01 R443) -/

/-- Records a refused write in the status register that its block names. -/
def recordRefusal (a reason : Nat) (s : State) : State :=
  let o := a % 0x10000
  match a / 0x10000 with
  | 0x2 => setReg 0x20040 (pack 32 [(1, 31, 31), (o, 15, 0)]) s
  | 0x3 => setReg 0x30010 (pack 32 [(1, 31, 31), (o, 15, 0)]) s
  | 0x4 => setReg 0x4A01C (pack 32 [(1, 31, 31), (o, 15, 0)]) s
  | 0x5 => setReg 0x51308 (pack 32 [(1, 31, 31), (o, 12, 0)]) s
  | 0x6 => setReg 0x60010 (pack 32 [(1, 31, 31), (o, 27, 12)]) s
  | 0x7 => setReg 0x70008 (pack 32 [(1, 31, 31), (o, 29, 16)]) s
  | 0x8 => setReg 0x80004 (pack 32 [(1, 31, 31), (o, 15, 0)]) s
  | 0x9 => if a < 0x92000 then setReg 0x92000 (pack 32 [(1, 31, 31), (reason, 9, 7), (o / 0x40, 6, 0)]) s else s
  | _ =>
    if a < 0x100000 then s
    else
      let c := (a - 0x100000) / 0x40000
      let x := a % 0x40000
      if x = 0x5100 || x = 0x5104 then setReg (chAddr c 0x5104) (putB (getReg s (chAddr c 0x5104)) 30 true) s
      else if 0x6000 ≤ x && decide (x < 0x6050) then setReg 0x20040 (pack 32 [(1, 31, 31), (1, 29, 29), (c, 28, 27), (x, 15, 0)]) s
      else s

/-- A refusal is recorded for the window and for MGMT_WR, and for boundary scan where 16 R394 says so. -/
def refuseWrite (via : Via) (a : Nat) (st : Byte) (reason : Nat) (s : State) : Byte × State :=
  let rec_ := match via with
    | .window => true
    | .mgmt => true
    | .scan => a / 0x10000 == 3
    | .change => false
  (st, if rec_ then recordRefusal a reason s else s)

/-- What a write would leave stored: RW bits from the value, CS bits from it in a change set, W1C bits cleared by a 1 (00 R5). -/
def stored (i : RegInfo) (via : Via) (old v : Reg) : Reg :=
  let m := if via = .change then i.rw ||| i.cs else i.rw
  ((old &&& ~~~m) ||| (v &&& m)) &&& ~~~(i.w1c &&& v)

/-- Master `m` writes `v` to the register at `a`: status and state. An address that 01 R28 refuses is BADARG and changes nothing.
Log 45 (DEDUCED). -/
def regWrite (via : Via) (m a : Nat) (v : Reg) (s : State) : Byte × State :=
  match regInfo s.part.grade a with
  | none => (stBadArg, s)
  | some i =>
    match i.kind with
    | .fields =>
      let old := getReg s a
      let new := stored i via old v
      if via ≠ .change && (old &&& i.cs) != (v &&& i.cs) then refuseWrite via a stDenied 0 s
      else match ownRule s m a old new v with
        | some (st, n) => refuseWrite via a st n s
        | none =>
          if a = 0x3000C then (stOk, provision v s)
          else
            let s := settleXpo s.cclk s
            let s := if 0x64000 ≤ a && decide (a < 0x65000) then holdGates [(a - 0x64000) / 4] s else s
            (stOk, withIrq (fun s => writeEffect a old v (storeReg a new s)) s)
    | _ => (stOk, s)

/-- Address of the mailbox through the address map (01 R29, R443; 12 R297). -/
def mbxAddr (a : Nat) : Bool := decide (0x1000000 ≤ a) && decide (a < 0x1040000) && a % 4 == 0

/-- An address of the PCIe window is mapped: a register or the mailbox (01 R28, R29). -/
def mapped (s : State) (a : Nat) : Bool := (regInfo s.part.grade a).isSome || mbxAddr a

/-- A write through the PCIe memory window (01 R29), which serves from step 4 of start-up (17 R407); an access to the mailbox is a row of
its own. Log 45 (DEDUCED). -/
def windowWrite (a : Nat) (v : Reg) (s : State) : State :=
  if s.dev.st ≠ .run then s
  else if !mapped s a then bump 0x4A020 s
  else if mbxAddr a then s
  else
    let (st, s) := regWrite .window 8 a v s
    if a = 0x3000C && st == stOk then { s with saves := s.saves ++ [{ who := .nobody }] } else s

/-- Read data of the PCIe window goes to the host. -/
def giveRead (m : Ap) (v : Reg) (s : State) : State :=
  if m = 8 then { s with pcie := { s.pcie with rdata := s.pcie.rdata ++ [v.setWidth 64] } } else s

/-- A read of a register by master `m`, served from step 4 of start-up (17 R407); for an address of the PCIe window that is not mapped, zero
(01 R29). -/
def windowRead (m : Ap) (a : Nat) (s : State) : State :=
  if s.dev.st ≠ .run then s
  else
    match regRead m a s with
    | some (v, s) => giveRead m v s
    | none => if m = 8 && !mbxAddr a then giveRead 8 0 (bump 0x4A020 s) else s

/-- PCIE_UNMAPPED_ACCESS: a read gives zero, a write is discarded, and either is counted (01 R29). An access to a mapped address is none. -/
def unmappedRun (write : Bool) (a : Nat) (s : State) : State :=
  if s.dev.st ≠ .run || mapped s a then s else if write then bump 0x4A020 s else giveRead 8 0 (bump 0x4A020 s)

end Sys2Proof.Machine
end

