-- ==== Sys2Proof/Machine/Image.lean ====
section
/-! DEFINITION. Saves of the latent image (17 R408-R410). -/

namespace Sys2Proof.Machine

/-- The Kept bits of the registers that differ from Factory, every other bit at Factory (17 R409, R411). -/
def keptRegs (s : State) : List (Nat × Reg) :=
  s.regs.filterMap fun x => match regInfo s.part.grade x.1 with
    | none => none
    | some i => let v := (x.2 &&& i.kept) ||| (i.fac &&& ~~~i.kept); if v = i.fac then none else some (x.1, v)

/-- The generation after `g`, from 1 to 2^32 - 1; the spec says nothing of the one after the last (17 R408, R409). -/
def nextGen (g : Option (Bool × Image)) (s : State) : Nat × State :=
  match g with
  | none => (1, s)
  | some x => if x.2.gen + 1 < 2 ^ 32 then (x.2.gen + 1, s) else let (v, s) := draw s; (1 + v.toNat % (2 ^ 32 - 1), s)

/-- The buffer that a save writes: the one without the newest valid image; either where neither is valid (17 R409, R410). -/
def saveBuffer (g : Option (Bool × Image)) (s : State) : Bool × State :=
  match g with
  | some x => (!x.1, s)
  | none => let (v, s) := draw s; (v.getLsbD 0, s)

/-- Stores image buffer 1 (`b`) or 0. -/
def putImage (b : Bool) (i : Option Image) (s : State) : State :=
  { s with aon := if b then { s.aon with img1 := i } else { s.aon with img0 := i } }

/-- What a save that starts now takes (17 R409). -/
def imageNow (gen : Nat) (s : State) : Image where
  gen := gen
  fwVersion := fwVersion s
  fwSlot := s.fw.active
  regs := keptRegs s
  log := s.log
  blocks := s.ch.toList.map (·.repaired)
  remaps := s.remaps
  ver := (s.fw.ver0, s.fw.ver1)

/-- SRAM word that image buffer 1 (`b`) or 0 begins with (12 Table 12.1; 17 R408). -/
def imageBase (b : Bool) : Nat := retainBase + (if b then 0x2000 else 0)

/-- The first word of a save that the regions deny the move engine, and whether to its write or to its reading back (12 R294, R295). Log 109
(DEDUCED). -/
def saveDenied (b : Bool) (i : Image) (s : State) : Option (Nat × Bool) :=
  match firstDenied s 10 (imageBase b) (imageLen s.part.grade i) true with
  | some w => some (w, true)
  | none => (firstDenied s 10 (imageBase b) (imageLen s.part.grade i) false).map (·, false)

/-- A save begins to write its buffer, which then holds no valid image, unless its first write is denied (12 R295; 17 R409). -/
def openBuffer (b : Bool) (s : State) : State := if rgnAllows s 10 (pageOf (imageBase b)) true then putImage b none s else s

/-- Starts the save at the head of the queue when none runs: it takes its content in this CCLK, and the buffer it writes holds no valid
image until the check (17 R409). Done after every command. Log 34 (DEDUCED). -/
def pumpSave (s : State) : State :=
  if !running s then s
  else match s.saves with
    | ⟨who, none, _⟩ :: t =>
      let g := newestImage s
      let (gen, s) := nextGen g s
      let (b, s) := saveBuffer g s
      openBuffer b { s with saves := ⟨who, some (imageNow gen s), b⟩ :: t }
    | _ => s

/-- Tells the one who waits that a save is over (15 R386, R389; 16 R394; 13 R339). -/
def saveDone (who : SaveFor) (st : Byte) (gen : Nat) (s : State) : State :=
  match who with
  | .reply c => finish c st (if c.op == 0x60 then gen % 65536 else 0) s
  | .repair e => postDev 9 e s
  | .scan => { s with svc := { s.svc with done := true, status := st } }
  | .nobody => s

/-- LATENT_IMAGE_SAVE: the image is written and read back (17 R409, R410); an access that the regions deny the move engine stops it (12
R295). Log 34 (DEDUCED). -/
def imageSaveRun (ok : Bool) (s : State) : State :=
  match s.saves with
  | ⟨who, some i, b⟩ :: t =>
    let s := { s with saves := t }
    match saveDenied b i s with
    | some (w, wr) => saveDone who stDenied 0 (noteDenied 10 w wr s)
    | none => saveDone who (if ok then stOk else stPoison) i.gen (if ok then putImage b (some i) (noteWaits 10 s) else noteWaits 10 s)
  | _ => s

end Sys2Proof.Machine
end

