-- ==== Sys2Proof/Machine/Protection.lean ====
section
/-! DEFINITION. Proposals, countersigns and change sets (15 R388-R390; 16 R391-R400). -/

namespace Sys2Proof.Machine

/-! ### Change sets (15 R388) -/

/-- The embedded packets of a change set: headers with their payloads; none where they do not fill the words exactly. Log 83 (DEDUCED). -/
def itemsOf : Nat → List Word → Option (List (Word × List Word))
  | 0, _ => none
  | _, [] => some []
  | k + 1, h :: t =>
    let n := fld h 31 24
    if t.length < n then none else (itemsOf k (t.drop n)).map fun l => (h, t.take n) :: l

/-- The addresses that payload word 0 of MGMT_RD or MGMT_WR names (15 R381). -/
def mgmtAddrs (w : Word) : List Nat := (List.range (fld w 38 32 + 1)).map fun i => fld w 31 0 + 4 * i

/-- Data words of `n` registers packed two to a word (15 R381). -/
def packedN (n : Nat) : Nat := cdiv n 2

/-- Register `i` of packed data words. -/
def unpack (l : List Word) (i : Nat) : Reg := BitVec.ofNat 32 (if i % 2 = 0 then fld (nth l (i / 2) 0) 63 32 else fld (nth l (i / 2) 0) 31 0)

/-- The unused half of the last of the words that carry `n` registers is not zero (15 R382). -/
def halfBad (n : Nat) (l : List Word) : Bool := n % 2 == 1 && fld (nth l (n / 2) 0) 31 0 != 0

/-- A register holds at least one CS field. -/
def hasCs (s : State) (a : Nat) : Bool := match regInfo s.part.grade a with | some i => i.cs != 0 | none => false

/-- An embedded packet breaks a condition of 15 R388 or its own length rule. -/
def itemBad (s : State) (x : Word × List Word) : Bool :=
  let op := fld x.1 63 56
  let w := nth x.2 0 0
  fld x.1 55 53 != 0 || fld x.1 51 38 != 0 ||
    (if op = 0x49 then x.2.isEmpty || x.2.length != 1 + packedN (fld w 38 32 + 1) || !(mgmtAddrs w).all (hasCs s)
     else if op = 0x5F then !x.2.isEmpty else true)

/-- The change-set digest (15 R388). -/
def digestOf (l : List Word) : Reg := crc32 (l.flatMap wordBytes)

/-- The bindings break 16 R395. -/
def bindBad (s : State) : Bool :=
  let a := getReg s 0x30000
  let b := getReg s 0x30004
  a == 0 || b == 0 || a &&& b != 0

/-- Writes registers in ascending order until one is refused: the number written, the status of the first refusal, the state (15 R382). -/
def writeRegs (via : Via) (m : Nat) : List (Nat × Reg) → Nat → State → Nat × Byte × State
  | [], n, s => (n, stOk, s)
  | (a, v) :: t, n, s =>
    let (st, s) := regWrite via m a v s
    if st = stOk then writeRegs via m t (n + 1) s else (n, st, s)

/-- Runs one embedded packet: its status and the state it leaves (16 R395, R399; 15 R382, R385). -/
def runItem (m : Nat) (x : Word × List Word) (s : State) : Byte × State :=
  if fld x.1 52 52 != 0 || fld x.1 37 32 != 0 || fld x.1 23 0 != 0 then (stBadArg, s)
  else if fld x.1 63 56 = 0x5F then
    if s.fw.standbyOk then (stOk, { s with fw := { s.fw with switchWait := true } }) else (stBadArg, s)
  else
    let w := nth x.2 0 0
    let l := mgmtAddrs w
    let ps := l.zipIdx.map fun y => (y.1, unpack (x.2.drop 1) y.2)
    if fld w 63 39 != 0 || halfBad l.length (x.2.drop 1) ||
        ps.any (fun y => (y.1 == 0x30000 || y.1 == 0x30004) && fld y.2 31 9 != 0) then (stBadArg, s)
    else
      let (_, st, s) := writeRegs .change m ps 0 s
      if st != stOk then (st, s) else if bindBad s then (stBadArg, s) else (stOk, s)

/-- Runs the packets of a change set in order: the status and index of the first refused, and the state they leave. -/
def runItems (m : Nat) : List (Word × List Word) → Nat → State → Option (Byte × Nat) × State
  | [], _, s => (none, s)
  | x :: t, n, s =>
    let (st, s) := runItem m x s
    if st = stOk then runItems m t (n + 1) s else (some (st, n), s)

/-! ### The commands -/

/-- Discards every outstanding proposal (16 R400). -/
def discardProps (s : State) : State := { s with prot := { s.prot with props := [] } }

/-- Discards the proposal `id`. -/
def dropProp (id : BitVec 16) (s : State) : State :=
  { s with prot := { s.prot with props := s.prot.props.filter (·.id != id), ended := s.prot.ended.filter (·.id != id) } }

/-- PROT_PROPOSE (15 R388; 16 R391, R396). -/
def proposeRun (c : Cmd) (s : State) : State :=
  let auth := authOf s c.p.ap
  let items := itemsOf 256 c.p.pay
  match firstBad [(auth == 0, stDenied), (decide (payN c < 2), stBadLen),
      (!argClear c (BitVec.allOnes 24) || (match items with | some l => l.any (itemBad s) | none => true), stBadArg),
      (decide (s.prot.props.length ≥ 4), stFull)] with
  | some st => refuse c st s
  | none =>
    let id := s.aon.nextProp
    let p : Proposal := { id := id, auth := BitVec.ofNat 2 auth, digest := digestOf c.p.pay, words := c.p.pay,
                          until_ := s.cclk + regF s 0x30008 9 0 * 1000 * cclkPerUs s.part.grade }
    let s := dropProp id s
    reply c stAwaitCs id.toNat [pack 64 [(id.toNat, 63, 48), (p.digest.toNat, 31, 0)]]
      { s with prot := { s.prot with props := s.prot.props ++ [p] }
               aon := { s.aon with nextProp := if id = BitVec.allOnes 16 then 1 else id + 1 } }

/-- A countersign is refused, and counted (16 R401). -/
def refuseCs (c : Cmd) (st : Byte) (info : Nat) (s : State) : State := reply c st info [] (bump 0x30028 s)

/-- A change set is applied: counted, named, saved; the command waits for the save (15 R389; 16 R395, R399). -/
def applied (c : Cmd) (p : Proposal) (masks switch : Bool) (s : State) : State :=
  let s := dropProp p.id (addStat 0x30020 1 s)
  let s := if masks || switch then discardProps s else s
  { s with prot := { s.prot with lastId := p.id, lastDigest := p.digest }
           fw := { s.fw with parked := s.fw.parked ++ [⟨c, .save⟩] }
           saves := s.saves ++ [{ who := .reply c }] }

/-- PROT_COUNTERSIGN (15 R389; 16 R391, R395, R397-R399). -/
def countersignRun (c : Cmd) (s : State) : State :=
  let w := payW c 0
  let id : BitVec 16 := BitVec.ofNat 16 (fld w 47 32)
  let auth := authOf s c.p.ap
  let found := (s.prot.props ++ s.prot.ended).find? (·.id == id)
  match firstBad [(payN c != 1, stBadLen),
      (auth == 0 || (match found with | some p => p.auth.toNat == auth | none => false), stDenied),
      (!argClear c (BitVec.allOnes 24) || fld w 63 48 != 0, stBadArg)], found with
  | some st, _ => refuseCs c st 0 s
  | none, none => refuseCs c stBadArg 0 s
  | none, some p =>
    if c.chk ≥ p.until_ then refuseCs c stTimeout 0 (dropProp id s)
    else if fld w 31 0 != p.digest.toNat then refuseCs c stCsMismatch 0 (dropProp id s)
    else
      let l := (itemsOf 256 p.words).getD []
      match runItems c.p.ap l 0 s with
      | (some (st, n), _) => refuseCs c st n (dropProp id s)
      | (none, t) =>
        applied c p (getReg t 0x30000 != getReg s 0x30000 || getReg t 0x30004 != getReg s 0x30004)
          (l.any fun x => fld x.1 63 56 == 0x5F) t

/-- PROT_WITHDRAW (15 R390). -/
def withdrawRun (c : Cmd) (s : State) : State :=
  let w := payW c 0
  let id : BitVec 16 := BitVec.ofNat 16 (fld w 47 32)
  match firstBad [(payN c != 1, stBadLen), (authOf s c.p.ap == 0, stDenied),
      (!argClear c (BitVec.allOnes 24) || fld w 63 48 != 0 || fld w 31 0 != 0 || !s.prot.props.any (·.id == id), stBadArg)] with
  | some st => refuse c st s
  | none => reply c stOk 0 [] (dropProp id s)

/-- The word of PROT_STATUS for a proposal (15 Table 15.10). -/
def propWord (s : State) (p : Proposal) : Word :=
  pack 64 [(p.id.toNat, 63, 48), (p.auth.toNat, 47, 46), (cdiv (p.until_ - s.cclk) (1000 * cclkPerUs s.part.grade), 41, 32),
    (p.digest.toNat, 31, 0)]

/-- PROT_STATUS (15 R390). -/
def protStatusRun (c : Cmd) (s : State) : State :=
  match firstBad [(payN c != 0, stBadLen), (!argClear c (BitVec.allOnes 24), stBadArg)] with
  | some st => refuse c st s
  | none => reply c stOk 0 (s.prot.props.map (propWord s)) s

/-! ### The end of a window (16 R397) -/

/-- A countersign of the proposal that is in time waits in the firmware queue. -/
def csWaits (s : State) (p : Proposal) : Bool :=
  s.fw.queue.any fun c => c.op == 0x69 && fld (payW c 0) 47 32 == p.id.toNat && decide (c.chk < p.until_)

/-- A proposal whose window has ended by now leaves the list, unless a countersign in time waits; done after every command. -/
def settleProps (s : State) : State :=
  let (gone, stay) := s.prot.props.partition fun p => decide (p.until_ ≤ s.cclk) && !csWaits s p
  { s with prot := { s.prot with props := stay, ended := s.prot.ended ++ gone } }

/-- PROPOSAL_WINDOW_END: the first window to end with no countersign in time waiting. -/
def windowEndRun (s : State) : State :=
  match ((s.prot.props.filter fun p => !csWaits s p).map (·.until_)).min? with
  | none => s
  | some n => settleProps (advanceTo n s)

end Sys2Proof.Machine
end

