-- ==== Sys2Proof/Machine/Startup.lean ====
section
/-! DEFINITION. Resets, start-up, the firmware's load and switch, channel resets (17 R402-R415). -/

namespace Sys2Proof.Machine

/-! ### What a reset keeps (17 R403, Table 17.2) -/

/-- What a channel keeps with the Array domain: rows, memories, sheets, the bad-entry table, block map, repairs and trims, negatives,
a pass to be ended (13 R333) and a CH_LOCK copy that was cut (03 R86). `ps` are the partitions of its group. -/
def keptChan (ps : List (Nat × Part)) (k : Chan) : Chan :=
  let k := k.pendDec.foldl (fun k d => stepSheet false d.2.1 d.2.2 k) k
  { ({} : Chan) with
    rows := k.rows, adm := k.adm, prio := k.prio, sheet := k.sheet, admBad := k.admBad, prioBad := k.prioBad, sheetBad := k.sheetBad,
    owner := k.owner, forced := k.forced, rebuild := k.forced, bad := k.bad,
    parts := ps.map fun p => (p.1, { live := p.2.live, st := p.2.st, abort := p.2.abort, cls := p.2.cls })
    copy := k.copy, proof := k.proof, heldBlk := k.heldBlk, trims := k.trims, repaired := k.repaired }

/-- Queue descriptors and pointers as kept; the items at the heads of work queues count from the time the part restarts with. -/
def keptQm (s : State) : Qm :=
  let ds := s.qm.desc.map fun p => (p.1, { p.2 with cAt := 0, cN := 0, pAt := 0, pN := 0 })
  { ({} : Qm) with
    desc := ds
    heads := (ds.filter fun p => p.2.enable && p.2.work && depth p.2 != 0).map fun p => (p.1, some s.aon.coarse) }

/-- SRAM words of the Array domain: stream records, queue memory, gate lists. -/
def arrayWord (w : Nat) : Bool := decide (w < poolBase) || (decide (gateBase ≤ w) && decide (w < mboxBase))

/-- The poisoned words of the Array domain that have been reported; what a reset keeps of them stays so, no write having cleared them
(13 R316). -/
def seenKept (s : State) : List Nat :=
  s.poisonSeen.filter fun k => [0, 1, 10].contains (k / 2 ^ 32) || arrayWord (k % 2 ^ 32 / 8)

/-- The core domain is cleared, and the Array domain unless `keep`; the always-on domain stays. `link` keeps the PCIe link.
Log 32 (DESIGN CHOICE). Log 92 (DESIGN CHOICE). -/
def coreReset (keep link : Bool) (s : State) : State where
  pending := s.pending
  free := s.free
  part := s.part
  pins := { s.pins with thermLow := false, arrRet := false, aliveLow := aliveAfter s .off }
  dev := { s.dev with st := .startup, tablesKept := keep, developed := false, darkReq := none, late := [], echoes := [], wakeSrc := 0, hot := 0, level := 0,
                      temps := List.replicate 6 0, unstarted := false, vidAt := 0 }
  aon := s.aon
  nextId := s.nextId
  ch := if keep then Vector.ofFn fun c => keptChan (chan s (leadOf s c)).parts (chan s c) else Vector.replicate 4 {}
  sram := if keep then s.sram.filter fun x => arrayWord x.1 else []
  vbad := if keep then s.vbad.filter arrayWord else []
  poisonSeen := if keep then seenKept s else []
  qm := if keep then keptQm s else {}
  pg := Vector.replicate 8 {}
  pcie := if link then { ({} : Pcie) with up := s.pcie.up, speed := s.pcie.speed, width := s.pcie.width, mask := s.pcie.mask, vecs := s.pcie.vecs } else {}
  brx := Vector.replicate 10 {}
  remaps := if keep then s.remaps else []
  svc := s.svc

/-- The VID code returns to `vid_fused` at a reset that stops the core domain, once it is driven (18 R427). -/
def fuseVid (s : State) : State := { s with pins := { s.pins with vid := s.pins.vid.map fun _ => s.part.vid } }

/-- A reset begins start-up, with its cause (17 Table 17.9). -/
def startReset (cause : BitVec 3) (keep link : Bool) (s : State) : State :=
  let s := fuseVid (coreReset keep link s)
  { s with dev := { s.dev with cause := cause } }

/-- Samples the straps, SMB_ADDR among them, and the level of ALIVE_N (01 R14; 07 R171; 17 R403; 18 Table 18.7). Log 31 (DEDUCED). -/
def sampleStraps (x : Straps) (s : State) : State :=
  { s with dev := { s.dev with devId := x.cascId, factoryStrap := !x.factoryN }, pins := { s.pins with aliveLow := !x.aliveN, smbAddr := x.smbAddr, factoryN := x.factoryN } }

/-- POWER_ON_RESET: VDD_AON has come up: every domain is cleared, the always-on domain with them; VID is high-impedance until VDDIO rises
(17 R402, R403; 18 R427). Log 31 (DEDUCED). -/
def powerOnRun (x : Straps) (s : State) : State :=
  sampleStraps x { State.reset with
    pending := s.pending, free := s.free, nextId := s.nextId, part := s.part,
    pins := { State.reset.pins with smbAddr := x.smbAddr, vid := none } }

/-- The TAP instruction drives pins, and holds the core domain as RESET_N low does (18 R436). -/
def tapHolds (s : State) : Bool := ([0x00, 0x03, 0x04, 0x05, 0x06] : List Byte).contains s.svc.ir

/-- COLD_START: PWR_GOOD rises while VDD_AON is supplied (17 R402). While RESET_N is low the core stays in reset, and starts with its
release (17 R406). -/
def coldStartRun (x : Straps) (s : State) : State :=
  let s := sampleStraps x (startReset 1 false false s)
  let s := { s with pins := { s.pins with pwrGood := true } }
  if s.pins.resetN && !tapHolds s then s else { s with dev := { s.dev with st := .held, unstarted := true } }

/-- The watchdog's highest reading is 115 °C or more (11 R272, 17 R404). Log 31 (DEDUCED). Log 75 (DEDUCED). -/
def tooHot (s : State) : Bool := s.dev.temps.any fun t => decide (sgn t ≥ 460)

/-- WARM_RESET: RESET_N is released while PWR_GOOD is high (17 R402, R404). The straps are sampled at each release, also where the core
domain stays in reset (01 R14). The first release after PWR_GOOD rose is the later of the two, and starts the part cold (17 R406).
Log 31 (DEDUCED). -/
def warmResetRun (x : Straps) (s : State) : State :=
  let s := sampleStraps x { s with pins := { s.pins with resetN := true } }
  if tapHolds s || (s.dev.st == .shutdown && tooHot s) then s
  else sampleStraps x (startReset (if s.aon.shut then 4 else if s.dev.unstarted then s.dev.cause else 2) (!s.aon.shut && !s.dev.unstarted) false s)

/-- The core domain is held in reset: every lane goes idle and the PCIe link goes down (17 R402, R418). -/
def holdCore (s : State) : State :=
  if s.dev.st = .shutdown then s
  else
    let s := fuseVid s
    { s with
      dev := { s.dev with st := .held }
      pins := { s.pins with arrRet := false, aliveLow := aliveAfter s .off }
      mbx := {}
      tb := { s.tb with ppsOutEnd := none }
      pg := s.pg.map fun g => { g with st := .down }
      ring := { s.ring with st := .off, east := { s.ring.east with st := .down }, west := { s.ring.west with st := .down } }
      pcie := { s.pcie with up := false } }

/-- RESET_ASSERT: RESET_N goes low (17 R402). -/
def resetAssertRun (s : State) : State := holdCore { s with pins := { s.pins with resetN := false } }

/-- The device reset of DEV_RESET (15 R387): of the straps FACTORY_N alone is sampled, at the level it has (17 Table 17.2). Log 85
(DEDUCED). -/
def deviceReset (s : State) : State :=
  let s := startReset 3 true true s
  { s with dev := { s.dev with factoryStrap := !s.pins.factoryN } }

/-! ### Negatives after a reset (06 R162) -/

/-- One partition: an open or pending negative is washed back, a running fix time ends in its wash. -/
def washPart (l : Chn) (p : Nat) (s : State) : State :=
  let x := partOf s l p
  match x.st with
  | .steady => s
  | .opened | .pend => endWash l p s.cclk (modPart l p (fun x => { x with st := .washing, abort := true }) s)
  | .fixing => endWash l p s.cclk (modPart l p (fun x => { x with st := .washing }) s)
  | .washing => endWash l p s.cclk s

/-- Every partition of a group; the stamp is 0x00 and every other value unissued (06 R160). -/
def washGroup (l : Chn) (s : State) : State :=
  let s := ((chan s l).parts.map (·.1)).foldl (fun s p => washPart l p s) s
  modChan l (fun k => { k with stamp := 0, stamps := [] }) s

/-! ### Tables kept over a change of the partition tables -/

/-- Rows and sheet counters of a channel that serve a position with no partition are not valid. -/
def clearFree (m : Chn) (s : State) : State :=
  modChan m (fun k =>
    let gone := fun (b : Nat) => match posServed k b with | some p => (mget k.owner p).isNone | none => false
    { k with rows := k.rows.filter fun x => !gone (x.1 / 8192)
             sheet := k.sheet.filter fun x => !gone (x.1 / 64)
             sheetBad := k.sheetBad.filter fun x => !gone (x / 64) }) s

/-- The block map follows the partition table as developed: blocks beyond it are given back, blocks missing are given. -/
def fitBlocks (l : Chn) (s : State) : State :=
  let s := (List.range 64).foldl (fun s p =>
    let n := if cfgOn (cfgOf s l p) then cfgBlocks (cfgOf s l p) else 0
    let s := dropBlocks l p n s
    (List.range n).foldl (fun s b =>
      if spans s l then (if (groupOf s l).any fun m => (posOf s m p b).isSome then s else placeBlock l p b s)
      else (groupOf s l).foldl (fun s m => if (posOf s m p b).isSome then s else giveBlock p b m s) s) s) s
  (groupOf s l).foldl (fun s m => clearFree m s) s

/-- A reset cut a CH_LOCK copy: its members are INDEPENDENT, all but the lead emptied (03 R86). -/
def cutCopy (l : Chn) (s : State) : State :=
  match (chan s l).copy with
  | none => s
  | some x =>
    let ms := (below 4 fun i => bitAt x.cmd.p.arg (8 + i)).map chn
    let s := (List.range 4).foldl (fun s i =>
      let a := chAddr i 0x3000
      if (groupOf s (chn i)).any fun m => ms.contains m then setReg a (regFac s.part.grade a) s else s) s
    let s := modChan l (fun k => { k with copy := none }) s
    (ms.filter (· != l)).foldl (fun s m =>
      let s := modChan m (fun k =>
        { k with rows := [], adm := [], prio := [], sheet := [], admBad := [], prioBad := [], sheetBad := [], owner := [], parts := [],
                 bad := [], forced := [], rebuild := [] }) s
      let s := (List.range 64).foldl (fun s p => setReg (chAddr m (p * 0x10)) 0 (setReg (chAddr m (p * 0x10 + 4)) 0 s)) s
      let s := setReg (chAddr m 0x3000) (putB (getReg s (chAddr m 0x3000)) 30 true) s
      (List.range 128).foldl (fun s p =>
        let r := getReg s (profReg p 0)
        if profOn r && profChan r == m then setReg (profReg p 0) (putB r 31 false) s else s) s) s

/-! ### Loading the firmware (17 R412-R414) -/

/-- The version of an image that passes R412. -/
def verify (l : List Word) : Option (BitVec 16) :=
  let n := fld (nth l 1 0) 31 0
  if fld (nth l 0 0) 63 32 = 0xF1A82816 && decide (n ≤ 2 ^ 20) && decide (n ≤ 8 * l.length) &&
      crc32 (((l.drop 4).flatMap wordBytes).take (n - 32)) == BitVec.ofNat 32 (fld (nth l 2 0) 31 0)
  then some (BitVec.ofNat 16 (fld (nth l 1 0) 63 48)) else none

/-- SRAM word that a firmware slot begins with. -/
def slotBase (b : Bool) : Nat := ralemBase + (if b then 131072 else 0)

/-- `flash_addr` register of a slot. -/
def slotAddr (b : Bool) : Nat := if b then 0x118 else 0x114

/-- Sets the version of a slot. -/
def setVer (b : Bool) (v : BitVec 16) (s : State) : State :=
  { s with fw := if b then { s.fw with ver1 := v } else { s.fw with ver0 := v } }

/-- Words of an image are written to a slot. -/
def writeSlot (b : Bool) (l : List Word) (s : State) : State := writeMems (slotBase b) (l.take 131072) s

/-- A firmware command is refused; a refused countersign is counted (16 R401). -/
def refuseFw (c : Cmd) (st : Byte) (s : State) : State := refuse c st (if c.op == 0x69 then bump 0x30028 s else s)

/-- Slot of load attempt `n`: the active one, then the other. -/
def trySlot (s : State) (n : Nat) : Bool := if n = 0 then s.fw.active else !s.fw.active

/-- Attempt `n` has a flash address. -/
def hasFlash (s : State) (n : Nat) : Bool := getReg s (slotAddr (trySlot s n)) != BitVec.allOnes 32

/-- The load goes on with attempt `n` or the next that has a flash address; with none the part has no firmware, and refuses every
firmware command (17 R407, R414). -/
def loadFrom (n : Nat) (s : State) : State :=
  let at_ := fun k => { s with fw := { s.fw with load := some k, startBy := none } }
  if n = 0 && hasFlash s 0 then at_ 0
  else if n ≤ 1 && hasFlash s 1 then at_ 1
  else
    s.fw.queue.foldl (fun s c => refuseFw c stDenied s)
      { s with fw := { s.fw with load := none, startBy := none, bootSrc := 2, queue := [] } }

/-- Ten milliseconds in CCLK. -/
def tenMs (s : State) : Nat := 10000 * cclkPerUs s.part.grade

/-- FIRMWARE_LOADED: the image of the present attempt has been read from the flash (17 R414); the controller writes it to its slot and
reads it there, and an attempt that the regions deny fails (12 R292, R294, R295). Log 7 (DESIGN CHOICE). Log 109 (DEDUCED). -/
def fwLoadedRun (image : Option (List Word)) (s : State) : State :=
  match s.fw.load, s.fw.startBy with
  | some n, none =>
    let l := image.getD []
    let w := slotBase (trySlot s n)
    let k := (l.take 131072).length
    match verify l, firstDenied s 9 w k true, firstDenied s 9 w k false with
    | _, some x, _ => loadFrom (n + 1) (noteDenied 9 x true s)
    | _, none, some x => loadFrom (n + 1) (noteDenied 9 x false (writeSlot (trySlot s n) l (noteConflicts 9 k s)))
    | none, none, none => loadFrom (n + 1) s
    | some v, none, none =>
      let s := setVer (trySlot s n) v (writeSlot (trySlot s n) l (noteConflicts 9 (2 * k) s))
      { s with fw := { s.fw with startBy := some (s.cclk + tenMs s) } }
  | _, _ => s

/-- FIRMWARE_START: the firmware reports that it has started, after a load or a switch (17 R414, R415). -/
def fwStartRun (s : State) : State :=
  match s.fw.switchRun with
  | some _ => { s with fw := { s.fw with up := true, switchRun := none } }
  | none => match s.fw.load, s.fw.startBy with
    | some n, some _ =>
      { s with fw := { s.fw with up := true, load := none, startBy := none, bootSrc := BitVec.ofNat 2 n, active := trySlot s n } }
    | _, _ => s

/-- FIRMWARE_START_TIMEOUT: no report within 10 ms of the load (17 R414). -/
def fwStartTimeoutRun (s : State) : State :=
  match s.fw.load, s.fw.startBy with
  | some n, some d => loadFrom (n + 1) (advanceTo d s)
  | _, _ => s

/-- FW_SWITCH_APPLY: with no firmware command parked the standby slot becomes active (17 R415). -/
def fwSwitchRun (s : State) : State :=
  if s.fw.switchWait && s.fw.parked.isEmpty then
    { s with fw := { s.fw with active := !s.fw.active, standbyOk := true, switchWait := false, up := false,
                               switchRun := some (s.cclk + tenMs s) } }
  else s

/-- FW_SWITCH_TIMEOUT: the new firmware did not start within 10 ms: the former slot is active again, and an image is saved (17 R415). -/
def fwSwitchTimeoutRun (s : State) : State :=
  match s.fw.switchRun with
  | none => s
  | some d =>
    let s := advanceTo d s
    { s with fw := { s.fw with active := !s.fw.active, up := true, switchRun := none, switchFailed := true }
             saves := s.saves ++ [{ who := .nobody }] }

/-! ### Start-up (17 R406, R407, R411) -/

/-- The channels that lead a group. -/
def leads (s : State) : List Chn := ((List.range 4).map chn).filter fun c => isLead s c

/-- The tables kept are brought in order: a copy that was cut, the block map, passes, negatives (03 R86; 13 R333; 06 R162).
Log 33 (DEDUCED). -/
def settleTables (s : State) : State :=
  let s := (List.range 4).foldl (fun s i => cutCopy (chn i) s) s
  let s := (List.range 4).foldl (fun s i => passAtReset (chn i) s) s
  (leads s).foldl (fun s l => washGroup l (fitBlocks l s)) s

/-- The tables cleared get their partitions' blocks anew, and the repair map of the image (13 R339). Log 33 (DEDUCED). -/
def freshTables (img : Option Image) (s : State) : State :=
  let bs := (img.map (·.blocks)).getD []
  let s := (List.range 4).foldl (fun s i => modChan (chn i) (fun k => { k with repaired := nth bs i none }) s) s
  let s := { s with remaps := (img.map (·.remaps)).getD [] }
  (leads s).foldl (fun s l => fitBlocks l s) s

/-- Links, ring, automatic passes, watchdog sweep, exposure and firmware load begin (17 Table 17.3 step 4; 09 R229). -/
def startServing (s : State) : State :=
  let s := (List.range 8).foldl (fun s g => if regB s (pgReg (pgn g) 0) 31 then setEnable (pgn g) true s else s) s
  let s := if regB s 0x4C000 31 then startRing s else s
  let gap := regF s 0x82000 15 0 * 1000 * cclkPerUs s.part.grade
  let s := (List.range 4).foldl (fun s i => modChan (chn i) (fun k => { k with nextAuto := s.cclk + gap }) s) s
  let s := setEff { s with wdNext := regF s 0x60008 17 0 }
  loadFrom 0 { s with xpo := { s.xpo with bal := burstEu s, was := burstEu s, refAt := s.cclk } }

/-- LATENT_IMAGE_DEVELOPED: steps 3 and 4 of start-up, with the LFCLK edge that T waits for (08 R199; 17 R406, R410, R411). Log 7 (DESIGN
CHOICE). Log 96 (DEDUCED). -/
def developedRun (s : State) : State :=
  if s.dev.st ≠ .startup then s
  else
    let img := if s.dev.factoryStrap then none else (newestImage s).map (·.2)
    let s := { s with
      dev := { s.dev with st := .run, developed := img.isSome }
      regs := (img.map (·.regs)).getD []
      log := (img.map (·.log)).getD {}
      fw := { s.fw with active := (img.map (·.fwSlot)).getD false } }
    startServing (lfclkEdgeRun (if s.dev.tablesKept then settleTables s else freshTables img s))

/-- A channel whose washes after a reset are over serves searches (17 R407); done after every command. -/
def settleReady (s : State) : State :=
  if s.dev.st ≠ .run then s
  else (leads s).foldl (fun s l => if (chan s l).ready || washing s l then s else modChan l (fun k => { k with ready := true }) s) s

/-! ### Channel reset (17 R405) -/

/-- Every search in the hold queues of a group is refused with ST_QUIESCED. Log 35 (DEDUCED). -/
def refuseHeld (l : Chn) (s : State) : State :=
  (groupOf s l).foldl (fun s m => (heldOf s m).foldl (fun s q => refuseSrch q stQuiesced 0 s) s) s

/-- DEV_RESET of a channel is taken: step 1. Log 35 (DEDUCED). -/
def chResetTake (c : Cmd) (l : Chn) (s : State) : State :=
  refuseHeld l (modChan l (fun k => { k with resetting := some c, resetDone := false })
    { s with fw := { s.fw with parked := s.fw.parked ++ [⟨c, .chReset l⟩] } })

/-- Address `a` lies in the block of channel `m`. -/
def inBlock (m : Chn) (a : Nat) : Bool := decide (0x100000 ≤ a) && decide (a < 0x200000) && (a - 0x100000) / 0x40000 == m.val

/-- The registers of a channel that are not Kept return to Factory (17 R405). -/
def chanFactory (m : Chn) (s : State) : State :=
  { s with
    regs := s.regs.filterMap fun x =>
      if !inBlock m x.1 then some x
      else match regInfo s.part.grade x.1 with
        | none => none
        | some i => let v := (x.2 &&& i.kept) ||| (i.fac &&& ~~~i.kept); if v = i.fac then none else some (x.1, v)
    cnt := s.cnt.filter fun x => !inBlock m x.1
    stat := s.stat.filter fun x => !inBlock m x.1
    shadow := s.shadow.filter fun x => !inBlock m (x.1 % 2 ^ 32) }

/-- A timed commit that a channel reset ends is answered; the spec gives no status for it. -/
def endPends (l : Chn) (s : State) : State :=
  (chan s l).pends.foldl (fun s d =>
    let (v, s) := draw s
    refuse d.cmd (BitVec.ofNat 8 (v.toNat % 0x16)) s) (modChan l (fun k => { k with pends := [] }) s)

/-- The searches that a group serves for ring origins end with the reset of its pipeline: the member reports ST_QUIESCED in their cells,
as for the held ones of step 1. Log 35 (DEDUCED). -/
def refuseServed (l : Chn) (s : State) : State :=
  (s.searches.filter fun q => q.mem.isSome && leadOf s q.ch == l).foldl (fun s q => refuseSrch q stQuiesced 0 s) s

/-- Steps 3 to 5: passes end, the pipeline, admission stage and hold queue are reset, negatives washed, registers at Factory. -/
def chResetDo (l : Chn) (s : State) : State :=
  let s := refuseServed l (settlePipe s.cclk s)
  let ms := groupOf s l
  let s := ms.foldl (fun s m => passAtReset m s) s
  let s := ms.foldl (fun s m => modChan m (fun k =>
    { k with rotAdm := 0, rotGive := 0, upd := { k.upd with arb := {} }, win := {}, pwr := { k.pwr with open4 := 0 } }) s) s
  let s := washGroup l (endPends l s)
  let s := ms.foldl (fun s m => chanFactory m s) s
  modChan l (fun k => { k with resetDone := true }) s

/-- CHANNEL_RESET_COMPLETE: the drain is over, and then the washes are: the command replies (17 R405). -/
def chResetRun (ch : Chn) (s : State) : State :=
  let l := leadOf s ch
  match (chan s l).resetting with
  | none => s
  | some c =>
    let busy := !drained s l || (chan s l).upd.job.isSome
    let s := if (chan s l).resetDone || busy then s else chResetDo l s
    if !(chan s l).resetDone || washing s l then s
    else finish c stOk 0 (modChan l (fun k => { k with resetting := none, resetDone := false }) s)

end Sys2Proof.Machine
end

