-- ==== Sys2Proof/Machine/Firmware.lean ====
section
/-! DEFINITION. The Ralem firmware: its queue, parked commands, and the commands it runs that no other file holds (03 R83-R88; 15
R373, R374, R380-R387; 17 R412, R416, R417). -/

namespace Sys2Proof.Machine

/-! ### INFO, IMAGE_SAVE, DEV_RESET -/

/-- A command of no payload and no argument. -/
def plainBad (c : Cmd) : Option Byte := firstBad [(payN c != 0, stBadLen), (!argClear c (BitVec.allOnes 24), stBadArg)]

/-- INFO (15 R380, Table 15.6). -/
def infoRun (c : Cmd) (s : State) : State :=
  match plainBad c with
  | some st => refuse c st s
  | none => reply c stOk 0
      [pack 64 [((devIdReg s).toNat, 63, 32), ((fwVersion s).toNat, 31, 16), (b2n s.fw.active, 15, 8), (1, 7, 0)],
       pack 64 [(c.p.ap.val, 63, 60), (authOf s c.p.ap, 59, 58), (b2n (!s.dev.developed), 57, 57)]] s

/-- A command is parked (15 R374). -/
def park (c : Cmd) (w : Wait) (s : State) : State := { s with fw := { s.fw with parked := s.fw.parked ++ [⟨c, w⟩] } }

/-- IMAGE_SAVE (15 R386). -/
def imageSaveCmd (c : Cmd) (s : State) : State :=
  match plainBad c with
  | some st => refuse c st s
  | none => park c .save { s with saves := s.saves ++ [{ who := .reply c }] }

/-- DEV_RESET, both scopes (15 R387). -/
def devResetRun (c : Cmd) (s : State) : State :=
  let scope := argF c 17 16
  match firstBad [(payN c != 0, stBadLen),
      (argF c 23 18 != 0 || argF c 15 8 != 0 || argF c 5 0 != 0 || decide (scope ≥ 2) || (scope == 0 && argF c 7 6 != 0), stBadArg)] with
  | some st => refuse c st s
  | none =>
    if scope = 0 then sendReply c { mkReply c stOk 0 [] s.cclk with after := .deviceReset } s
    else chResetTake c (leadOf s (chn (argF c 7 6))) s

/-! ### Management registers (15 R381, R382) -/

/-- SRAM word of a mailbox address, and its half: the bytes 4 to 7 of the word for an odd one. Log 47 (DEDUCED). -/
def mbxWordOf (a : Nat) : Nat := mboxBase + (a - 0x1000000) / 8
def mbxHigh (a : Nat) : Bool := a / 4 % 2 == 1

/-- Mailbox words among addresses. -/
def mbxWords (l : List Nat) : List Nat := (l.filter mbxAddr).map mbxWordOf

/-- The address checks of MGMT_RD and MGMT_WR (15 R381): reserved bits and addresses, then regions. -/
def mgmtChecks (c : Cmd) (bad write : Bool) (l : List Nat) (s : State) : Option (Byte × State) :=
  if !argClear c (BitVec.allOnes 24) || fld (payW c 0) 63 39 != 0 || bad ||
      l.any (fun a => !mbxAddr a && (regInfo s.part.grade a).isNone) then some (stBadArg, s)
  else match (mbxWords l).find? fun w => !rgnAllows s c.p.ap (pageOf w) write with
    | some w => some (stDenied, noteDenied c.p.ap w write s)
    | none => none

/-- Hands an access to `act`, or lets it wait for the mailbox's bank group or a lent page (11 R281, 13 R336). -/
def mgmtAccess (c : Cmd) (lent : Bool) (l : List Nat) (act : State → State) (s : State) : State :=
  let ws := mbxWords l
  if ws.any (asleep s) then waitBg 6 (some c) s
  else if !lent && ws.any (lentWord s) then { s with lentWait := s.lentWait ++ [c] }
  else act (if ws.isEmpty then s else noteConflicts c.p.ap ws.length s)

/-- Master `m` reads a register or a mailbox half word: the value, and whether it was poisoned. -/
def mgmtGet (m a : Nat) (s : State) : Reg × Bool × State :=
  if mbxAddr a then
    let (v, bad, s) := readMem (mbxWordOf a) s
    (if mbxHigh a then v.extractLsb' 32 32 else v.setWidth 32, bad, s)
  else match regRead m a s with
    | some (v, s) => (v, false, s)
    | none => (0, false, s)

/-- Reads addresses in ascending order. -/
def mgmtGets (m : Nat) : List Nat → State → List Reg × Bool × State
  | [], s => ([], false, s)
  | a :: t, s =>
    let (v, b, s) := mgmtGet m a s
    let (vs, bs, s) := mgmtGets m t s
    (v :: vs, b || bs, s)

/-- MGMT_RD (15 R381). -/
def mgmtRdRun (lent : Bool) (c : Cmd) (s : State) : State :=
  let l := mgmtAddrs (payW c 0)
  if payN c != 1 then refuse c stBadLen s
  else match mgmtChecks c false false l s with
    | some (st, s) => refuse c st s
    | none => mgmtAccess c lent l (fun s =>
        let (vs, bad, s) := mgmtGets c.p.ap l s
        reply c (memStatus bad (lent && !(mbxWords l).isEmpty)) 0 (packRegs vs) s) s

/-- Writes a register or a mailbox half word. -/
def mgmtPut (m a : Nat) (v : Reg) (s : State) : Byte × State :=
  if mbxAddr a then
    (stOk, writeMem (mbxWordOf a) (if mbxHigh a then 0xF0 else 0x0F) (if mbxHigh a then v ++ (0 : BitVec 32) else v.setWidth 64) s)
  else regWrite .mgmt m a v s

/-- Writes in ascending order until one is refused: how many were written, and the status of the refusal. Log 47 (DEDUCED). -/
def mgmtPuts (m : Nat) : List (Nat × Reg) → Nat → State → Nat × Byte × State
  | [], n, s => (n, stOk, s)
  | (a, v) :: t, n, s =>
    let (st, s) := mgmtPut m a v s
    if st = stOk then mgmtPuts m t (n + 1) s else (n, st, s)

/-- MGMT_WR (15 R382). A PROT_PROVISION among its registers that takes effect has an image saved, and the command waits for it (16 R394). -/
def mgmtWrRun (lent : Bool) (c : Cmd) (s : State) : State :=
  let l := mgmtAddrs (payW c 0)
  if payN c == 0 || payN c != 1 + packedN l.length then refuse c stBadLen s
  else match mgmtChecks c (halfBad l.length (c.p.pay.drop 1)) true l s with
    | some (st, s) => refuse c st s
    | none => mgmtAccess c lent l (fun s =>
        let (n, st, s) := mgmtPuts c.p.ap (l.zipIdx.map fun x => (x.1, unpack (c.p.pay.drop 1) x.2)) 0 s
        let prov := (l.take n).contains 0x3000C
        if st != stOk then
          reply c st n [] (if prov then { s with saves := s.saves ++ [{ who := .nobody }] } else s)
        else if prov then park c .save { s with saves := s.saves ++ [{ who := .reply c }] }
        else reply c (memStatus false (lent && !(mbxWords l).isEmpty)) 0 [] s) s

/-! ### Quiesce and resume (15 R383; 17 R416, R417) -/

/-- CH_QUIESCE and CH_RESUME in error. -/
def svcBad (c : Cmd) : Option Byte := firstBad [(payN c != 0, stBadLen), (argF c 23 8 != 0 || argF c 5 0 != 0, stBadArg)]

/-- CH_QUIESCE: new and held searches are refused from now on; the reply waits for the drain (17 R416). -/
def quiesceRun (c : Cmd) (s : State) : State :=
  let l := leadOf s (chn (argF c 7 6))
  match svcBad c with
  | some st => refuse c st s
  | none =>
    if (chan s l).quiesced then reply c stOk 0 [] s
    else park c (.quiesce l) (refuseHeld l (modChan l (fun k => { k with draining := true }) s))

/-- QUIESCE_DRAIN_COMPLETE: no search of the group is in flight: it is quiesced, and the command replies (05 R134, 17 R416). -/
def drainRun (ch : Chn) (s : State) : State :=
  let l := leadOf s ch
  if (chan s l).draining && drained s l then
    let s := modChan l (fun k => { k with draining := false, quiesced := true }) s
    match s.fw.parked.find? fun p => p.why == .quiesce l with
    | some p => finish p.cmd stOk 0 s
    | none => s
  else s

/-- CH_RESUME: the group admits from the next CCLK on (17 R417). -/
def resumeRun (c : Cmd) (s : State) : State :=
  let l := leadOf s (chn (argF c 7 6))
  match svcBad c with
  | some st => refuse c st s
  | none => reply c stOk 0 [] (modChan l (fun k => { k with quiesced := false, openFrom := s.cclk + 1 }) s)

/-! ### CH_LOCK (03 R83-R87) -/

/-- Channels of a CH_LOCK, its mode, and its lead. -/
def lockMs (c : Cmd) : List Chn := (below 4 fun i => bitAt c.p.arg (8 + i)).map chn
def lockMd (c : Cmd) : Nat := argF c 15 12
def lockLead (c : Cmd) (m : Chn) : Chn := if lockMd c = 0 then m else (lockMs c).headD m

/-- `members` is a grouping of 03 Table 3.12 for the mode. -/
def groupingOk (c : Cmd) : Bool :=
  let m := argF c 11 8
  match lockMd c with
  | 0 => m != 0
  | 3 => [0b0011, 0b1100, 0b1111].contains m
  | _ => [0b0011, 0b1100].contains m

/-- The registers of a channel's partition table: configurations and owners. -/
def tableOf (s : State) (m : Chn) : List Reg :=
  (List.range 64).flatMap fun p => [0x0, 0x4, 0xC].map fun o => getReg s (chAddr m (p * 0x10 + o))

/-- The checks of CH_LOCK (03 R84). Log 50 (DEDUCED). -/
def lockBad (c : Cmd) (s : State) : Option Byte :=
  let ms := lockMs c
  let md := lockMd c
  let copy := argF c 0 0 == 1
  let used := fun (m : Chn) => (List.range 64).any fun p => cfgOn (cfgOf s m p)
  let ctl := fun p => getReg s (profReg p 0)
  firstBad [(payN c != 0, stBadLen),
    (argF c 23 16 != 0 || argF c 7 5 != 0 || argF c 3 1 != 0 || decide (md > 3) || (argF c 4 4 == 1 && md != 1) ||
      (copy && (md == 0 || md == 2)) || !groupingOk c || ms.any (fun m => (groupOf s m).any fun x => !ms.contains x), stBadArg),
    (ms.any fun m => !(chan s (leadOf s m)).quiesced, stBadArg),
    (ms.any fun m => (chan s (leadOf s m)).parts.any fun p => p.2.st != .steady, stBusyFix),
    ((md == 2 || ms.any fun m => lockMode s m == 2) && ms.any used, stBadArg),
    ((List.range 128).any fun p => profOn (ctl p) && ms.contains (profChan (ctl p)) && lockLead c (profChan (ctl p)) != profChan (ctl p), stBadArg),
    ((md == 1 || md == 3) && !copy && ms.any fun m => tableOf s m != tableOf s (ms.headD m), stBadArg)]

/-- The update commands of the channels named go to the units of their groups as they are now, in the order of their checks. -/
def shareQueues (ms : List Chn) (s : State) : State :=
  let all := (ms.flatMap fun m => (chan s m).upd.queue).mergeSort fun a b => a.id ≤ b.id
  let s := ms.foldl (fun s m => modUpd m (fun u => { u with queue := [] }) s) s
  all.foldl (fun s c => modUpd (leadOf s (cmdCh c)) (fun u => { u with queue := u.queue ++ [c] }) s) s

/-- The new grouping is in force (03 R77, R79, R86, R87; 06 R160): a new group goes on with its lead's stamps, negatives and power state;
a member that leaves a group keeps the negatives it had in it, and starts its stamps afresh. -/
def regroup (c : Cmd) (s : State) : State :=
  let ms := lockMs c
  let old := s
  let s := ms.foldl (fun s m =>
    let from_ := chan old (leadOf old m)
    let was := leadOf old m == m
    modChan m (fun k => { k with
      parts := from_.parts, pwr := from_.pwr, quiesced := true, ready := from_.ready, replicaNext := 0,
      stamp := if was then k.stamp else 0, stamps := if was then k.stamps else [] }) s) s
  let s := ms.foldl (fun s m =>
    let l := lockLead c m
    let a := chAddr m 0x3000
    let mask := if lockMd c = 0 then 2 ^ m.val else argF c 11 8
    setReg a ((getReg s a &&& ones 30 30) ||| pack 32 [(mask, 11, 8), (argF c 4 4, 4, 4), (lockMd c, 3, 1), (b2n (l == m), 0, 0)]) s) s
  let s := if lockMd c = 0 then s else
    let l := ms.headD 0
    (List.range 64).foldl (fun s p => setPartReg l p 0xC (getReg s (chAddr l (p * 0x10 + 0xC))) s) s
  shareQueues ms s

/-- What the copy of R85 counts and reports as it reads the lead channel `l`: correctable planes of its rows, associated data, priorities
and sheet counters (13 R315, R316, R320; 02 R52). -/
def noteCopy (l : Chn) (s : State) : State :=
  let k := chan s l
  let s := k.rows.foldl (fun s x =>
    if (posServed k (x.1 / 8192)).isSome then let (_, hd, hm) := decodeRow x.2; countRow hd hm s else s) s
  let side := fun (mem : Nat) (key row heal : Nat → Nat) (bad : List Nat) (m : Sram) (s : State) =>
    (m.map (·.1) ++ bad).eraseDups.foldl (fun s i =>
      let (_, h, mask) := readWord (under bad m i)
      if h = .correct then s
      else
        let ((p, e, j, _), s) := rowNamed l (row i / 8192) (row i % 8192) s
        let s := noteRead mem (key i) (entLoc l p e j) h mask s
        if h = .correctable then offerHeal (heal i) s else s) s
  let s := side 0 (keyAd l) id (healAd l) k.admBad k.adm s
  let s := side 1 (fun i => keyHalf l (4 * i)) (4 * ·) (fun i => healPrio l (4 * i)) k.prioBad k.prio s
  (k.sheet.map (·.1) ++ k.sheetBad).eraseDups.foldl (fun s i => noteSheet l (4 * i) s) s

/-- The content of the lead channel `l` overwrites that of `m` (03 R85): what can be corrected is, and what cannot stays poisoned. -/
def copyChan (l m : Chn) (s : State) : State :=
  let s := flushDecs l s.cclk s
  let k := chan s l
  let toBlk := fun (b : Nat) => match posServed k b with | some p => writePhys (chan s m) p | none => []
  let rows := k.rows.flatMap fun x => (toBlk (x.1 / 8192)).map fun b => (b * 8192 + x.1 % 8192, (decodeRow x.2).1)
  let sheet := k.sheet.flatMap fun x => (toBlk (x.1 / 64)).map fun b => (b * 64 + x.1 % 64, healWord x.2)
  let s := modChan m (fun x => { x with
    rows := rows.foldl (fun t y => mset t y.1 y.2) []
    sheet := sheet.foldl (fun t y => mset t y.1 y.2) []
    adm := k.adm.map fun y => (y.1, healWord y.2)
    prio := k.prio.map fun y => (y.1, healWord y.2)
    admBad := k.admBad, prioBad := k.prioBad
    sheetBad := k.sheetBad.flatMap fun x => (toBlk (x / 64)).map fun b => b * 64 + x % 64
    owner := k.owner, parts := k.parts, bad := k.bad, corr := [], pendDec := []
    forced := k.forced.flatMap toBlk, rebuild := k.forced.flatMap toBlk, rebuildRow := 0, rebuildBusy := false, rebuildAsked := [] })
    { s with poisonSeen := s.poisonSeen.filter fun x => !([0, 1, 10].contains (x / 2 ^ 32) && x % 2 ^ 32 / 2 ^ 20 == m.val)
             healQ := s.healQ.filter fun x => !(decide (x ≥ 0x1000000) && chn (x / 0x1000000 - 1) == m) }
  let s := (List.range 64).foldl (fun s p => [0x0, 0x4, 0xC].foldl (fun s o =>
    setReg (chAddr m (p * 0x10 + o)) (getReg s (chAddr l (p * 0x10 + o))) s) s) s
  (List.range 64).foldl (fun s pos => followCopy l pos m (servePhys (chan s l) pos) (servePhys (chan s m) pos) s) s

/-- CH_LOCK (03 R83-R86). Log 50 (DEDUCED). -/
def lockRun (c : Cmd) (s : State) : State :=
  match lockBad c s with
  | some st => refuse c st s
  | none =>
    if argF c 0 0 = 1 then
      let l := (lockMs c).headD 0
      park c (.lock l) (modChan l (fun k => { k with copy := some ⟨c, s.cclk⟩ }) s)
    else reply c stOk 0 [] (regroup c s)

/-- CH_LOCK_COPY_END: 90,112 CCLK after the command was accepted the copy ends and the grouping is in force (03 R85, R86). -/
def lockCopyRun (ch : Chn) (s : State) : State :=
  let l := leadOf s ch
  match (chan s l).copy with
  | none => s
  | some x =>
    let s := advanceTo (x.start + 90112) s
    let s := settlePipe s.cclk s
    let s := ((lockMs x.cmd).filter (· != l)).foldl (fun s m => copyChan l m s) (noteCopy l s)
    finish x.cmd stOk 0 (regroup x.cmd (modChan l (fun k => { k with copy := none }) s))

/-! ### FW_STAGE (15 R384; 17 R412, R414) -/

/-- The test of a lent page among the words ends before the firmware accesses them (13 R336). -/
def freePages (ws : List Nat) (s : State) : State := if ws.any (lentWord s) then interruptPage s else s

/-- The Ralem controller accesses `n` words from `w0` on for a command, as far as the regions let it, and `f` goes on with them (12 R292,
R294, R295). Log 109 (DEDUCED). -/
def fwWords (w0 n : Nat) (write : Bool) (c : Cmd) (f : State → State) (s : State) : State :=
  match firstDenied s 9 w0 n write with
  | some w => finish c stDenied 0 (noteDenied 9 w write s)
  | none => f (noteConflicts 9 n (freePages ((List.range n).map (w0 + ·)) s))

/-- Words of an image in a slot, by its header; never beyond the slot. -/
def slotLen (b : Bool) (s : State) : Nat :=
  let w := match rawWord s (slotBase b + 1) with | some x => (decodeWord x).1 | none => 0
  min 131072 (max 4 (cdiv (fld w 31 0) 8))

/-- The outcome of a verification: the slot is verified or empty, and the command replies (15 R384). -/
def staged (c : Cmd) (b : Bool) (v : Option (BitVec 16)) (s : State) : State :=
  match v with
  | some v => finish c stOk v.toNat (setVer b v { s with fw := { s.fw with standbyOk := true } })
  | none => finish c stBadArg 0 s

/-- The image in slot `b` is read and verified, once it is written (15 R384); a poisoned word ends the command (13 Table 13.4). -/
def verifySlot (c : Cmd) (b : Bool) (s : State) : State :=
  fwWords (slotBase b) (slotLen b s) false c (fun s =>
    let (ws, ps, s) := readMems (slotBase b) (slotLen b s) 0 s
    if ps.isEmpty then staged c b (verify ws) s else finish c stPoison 0 s) s

/-- FW_STAGE (15 R384). Log 36 (DEDUCED). -/
def fwStageRun (c : Cmd) (s : State) : State :=
  let w := payW c 0
  let flash := argF c 0 0 == 1
  let off := fld w 31 0
  let n := payN c - 1
  let b := !s.fw.active
  match firstBad [(if flash then payN c != 1 else decide (payN c < 2), stBadLen),
      (argF c 23 1 != 0 || (if flash then fld w 63 32 != 0 else fld w 62 32 != 0 || off % 8 != 0 || decide (off + 8 * n > 2 ^ 20)), stBadArg)] with
  | some st => refuse c st s
  | none =>
    let s := { s with fw := { s.fw with standbyOk := false } }
    if flash then park c .flash (setReg (slotAddr b) (BitVec.ofNat 32 off) s)
    else
      let s := setReg (slotAddr b) (BitVec.allOnes 32) s
      let w0 := slotBase b + off / 8
      fwWords w0 n true c (fun s =>
        let s := writeMems w0 (c.p.pay.drop 1) s
        if bitAt w 63 then verifySlot c b s else reply c stOk 0 [] s) s

/-- FLASH_STAGE_COMPLETE: the image has been read from the flash and written to the standby slot (15 R384). Log 36 (DEDUCED). -/
def flashStageRun (image : Option (List Word)) (s : State) : State :=
  match s.fw.parked.find? fun p => p.why == .flash with
  | none => s
  | some p =>
    let b := !s.fw.active
    let l := (image.getD []).take 131072
    fwWords (slotBase b) l.length true p.cmd (fun s => verifySlot p.cmd b (writeSlot b l s)) s

/-! ### The command queue (15 R373, R374) -/

/-- Raw access is enabled (13 R324). -/
def rawOn (s : State) : Bool := regB s 0x80000 31

/-- A raw access is to a TCAM row (13 Table 13.5). -/
def rawTcam (c : Cmd) : Bool := argF c 22 22 == 1

/-- SRAM words that a MEM_WR or MEM_RAW_WR names. -/
def memWords (c : Cmd) : List Nat := (List.range (payN c)).map fun i => fld (payW c 0) 31 0 / 8 + i

/-- Runs a firmware command; `lent` where it has waited for a lent page. -/
def fwExec (lent : Bool) (c : Cmd) (s : State) : State :=
  match c.op.toNat with
  | 0x02 => infoRun c s
  | 0x2B => partCfgRun c (settlePipe s.cclk s)
  | 0x38 => if argF c 18 18 = 1 then qCfgReadRun c s else qCfgRun c s
  | 0x48 => mgmtRdRun lent c s
  | 0x49 => mgmtWrRun lent c s
  | 0x4A => memRdRun lent c s
  | 0x4B => memWrRun lent c (holdGates (listsAt (memWords c)) s)
  | 0x4C => if !rawOn s then refuse c stDenied s else if rawTcam c then rawRdTcam c s else memRawRdSram lent c s
  | 0x4D => if !rawOn s then refuse c stDenied s else if rawTcam c then enqueueUpd c s else memRawWrSram lent c (holdGates (listsAt (memWords c)) s)
  | 0x50 => xpoSetRun c s
  | 0x51 => if argF c 23 23 = 1 then chStateDevRun c s else chStateRun c s
  | 0x52 => timeSetRun c s
  | 0x53 => timeAdjRun c s
  | 0x54 => cygCfgRun c (holdGates (gclsOf s (argF c 3 0)) s)
  | 0x58 => quiesceRun c s
  | 0x59 => resumeRun c s
  | 0x5A => lockRun c s
  | 0x5B => proofStartRun c s
  | 0x5C => calStartRun c s
  | 0x5D => if argF c 23 22 ≤ 1 then repairBlockRun c s else repairRemapRun c s
  | 0x5E => fwStageRun c s
  | 0x5F => refuse c stDenied s
  | 0x60 => imageSaveCmd c s
  | 0x61 => devResetRun c s
  | 0x68 => proposeRun c s
  | 0x69 => countersignRun c s
  | 0x6A => withdrawRun c s
  | 0x6B => protStatusRun c s
  | _ => breachCfgRun c s

/-- Channels that a firmware command names. -/
def fwChans (s : State) (c : Cmd) : List Chn :=
  let one := fun (n : Nat) => [leadOf s (chn n)]
  match c.op.toNat with
  | 0x2B | 0x58 | 0x59 => one (argF c 7 6)
  | 0x4C | 0x4D => if rawTcam c then one (cmdCh c) else []
  | 0x51 => if argF c 23 23 = 1 then (List.range 4).map chn else (namedChans s (argF c 11 8)).map (leadOf s)
  | 0x5A => (lockMs c).map (leadOf s)
  | 0x5B | 0x5C => if argF c 23 23 = 1 then [] else one (argF c 7 6)
  | 0x5D => if argF c 23 22 = 2 then [] else one (argF c 7 6)
  | 0x61 => if argF c 17 16 = 1 then one (argF c 7 6) else []
  | _ => []

/-- A command accesses SRAM words from `lo` up to `hi`. -/
def reaches (c : Cmd) (lo hi : Nat) : Bool :=
  let w := fld (payW c 0) 31 0 / 8
  let n := match c.op.toNat with
    | 0x4A => fld (payW c 0) 40 32
    | 0x4B => payN c - 1
    | 0x4C => if rawTcam c then 0 else fld (payW c 0) 40 32
    | 0x4D => if rawTcam c then 0 else (payN c - 1) / 2
    | _ => 0
  decide (w < hi) && decide (lo < w + n)

/-- A PROT_COUNTERSIGN of a change set that switches the firmware. -/
def switches (s : State) (c : Cmd) : Bool :=
  c.op == 0x69 && (s.prot.props ++ s.prot.ended).any fun p =>
    p.id.toNat == fld (payW c 0) 47 32 && ((itemsOf 256 p.words).getD []).any fun x => fld x.1 63 56 == 0x5F

/-- A write of PROT_PROVISION is among the registers of a MGMT_WR. -/
def provisions (c : Cmd) : Bool := c.op == 0x49 && (mgmtAddrs (payW c 0)).contains 0x3000C

/-- A firmware command must wait for a parked one: it names the same channel, the time base, the retained store or the standby slot (15
R374). Log 9 (DESIGN CHOICE). -/
def waitsFor (s : State) (c : Cmd) (p : Park) : Bool :=
  match p.why with
  | .quiesce l | .chReset l => (fwChans s c).contains (leadOf s l)
  | .lock _ => (fwChans s c).any fun m => ((lockMs p.cmd).map (leadOf s)).contains m
  | .darkroom => !(fwChans s c).isEmpty
  | .timeSet => c.op == 0x53
  | .save => c.op == 0x60 || c.op == 0x69 || provisions c || reaches c retainBase (retainBase + 0x4000)
  | .flash => c.op == 0x5E || switches s c || reaches c (slotBase !s.fw.active) (slotBase (!s.fw.active) + 131072)

/-- The firmware is busy with a command it has taken and not parked. Log 9 (DESIGN CHOICE). -/
def fwBusy (s : State) : Bool :=
  !s.lentWait.isEmpty || s.bgWait.any (·.cmd.any fun c => c.op != 0x30 && c.op != 0x31) || s.qm.range.isSome || s.remapRun.any (·.cmd.isSome) ||
    s.ch.toList.any fun k => k.upd.queue.any (·.op == 0x4D) || (k.upd.job.any (·.cmd.op == 0x4D))

/-- A CH_LOCK that its checks accept waits until the update units it names have made the steps of their running commands. Log 50
(DEDUCED). -/
def jobsRun (s : State) (c : Cmd) : Bool :=
  c.op == 0x5A && (lockBad c s).isNone && (lockMs c).any fun m => (chan s (leadOf s m)).upd.job.isSome

/-- The command next to run waits for slots of its reply, or for running steps. -/
def heldBack (s : State) (c : Cmd) : Bool := slotsShort s c || jobsRun s c

/-- The firmware takes commands from its queue as far as it may; one that would be the ninth parked waits (15 R374, 17 R415).
Log 9 (DESIGN CHOICE). -/
def fwDrain : Nat → State → State
  | 0, s => s
  | k + 1, s =>
    match s.fw.queue with
    | [] => s
    | c :: t =>
      if !s.fw.up || s.fw.switchWait || fwBusy s || s.fw.parked.any (waitsFor s c) || heldBack s c then s
      else
        let s' := fwExec false c { s with fw := { s.fw with queue := t } }
        if s'.fw.parked.length > 8 then s else fwDrain k s'

/-- A firmware command joins the queue (15 R373; 17 R407). -/
def fwArrive (c : Cmd) (s : State) : State :=
  if s.fw.bootSrc = 2 then refuseFw c stDenied s
  else
    let (a, q, x) := joinQueue 64 c s.fw.arb s.fw.queue
    let s := { s with fw := { s.fw with queue := q, arb := a } }
    match x with | some x => refuseFw x stFull s | none => s

end Sys2Proof.Machine
end

