-- ==== Sys2Proof/Machine/Packet.lean ====
section
/-! DEFINITION. Command packets: the header checks and the unit that runs each opcode (15 R369-R379). -/

namespace Sys2Proof.Machine

/-- The opcodes of 15 Table 15.4. -/
def opcodes : List Byte :=
  [0x00, 0x01, 0x02, 0x10, 0x11, 0x12, 0x20, 0x21, 0x22, 0x23, 0x24, 0x25, 0x26, 0x28, 0x29, 0x2A, 0x2B, 0x30, 0x31, 0x32, 0x38, 0x39, 0x3A,
   0x3B, 0x3C, 0x3D, 0x40, 0x41, 0x42, 0x43, 0x44, 0x48, 0x49, 0x4A, 0x4B, 0x4C, 0x4D, 0x50, 0x51, 0x52, 0x53, 0x54, 0x58, 0x59, 0x5A, 0x5B,
   0x5C, 0x5D, 0x5E, 0x5F, 0x60, 0x61, 0x68, 0x69, 0x6A, 0x6B, 0x70]

/-- NOP (15 R379): the reply 6 CCLK after the check. -/
def nopRun (c : Cmd) (s : State) : State := sendReply c (mkReply c ((plainBad c).getD stOk) 0 [] (s.cclk + 6)) s

/-- The ECHO commands that the slots of their replies suffice for are answered (14 R347; 15 R379). -/
def echoTake (s : State) : State :=
  s.dev.echoes.foldl (fun s c =>
    if slotsShort s c then s
    else sendReply c (mkReply c stOk c.p.arg.toNat c.p.pay (s.cclk + 6)) { s with dev := { s.dev with echoes := s.dev.echoes.filter (·.id != c.id) } }) s

/-- ECHO (15 R379). -/
def echoRun (c : Cmd) (s : State) : State := echoTake { s with dev := { s.dev with echoes := s.dev.echoes ++ [c] } }

/-- Hands a command whose header is good to its unit (15 R373, Table 15.2). -/
def dispatch (c : Cmd) (s : State) : State :=
  match c.op.toNat with
  | 0x00 => nopRun c s
  | 0x01 => echoRun c s
  | 0x10 => srchRun c s
  | 0x11 => hsrchIn c s
  | 0x12 => srchRun c s
  | 0x30 | 0x31 | 0x32 => seJoin c s
  | 0x39 | 0x3A | 0x3B | 0x3C | 0x3D => qmJoin c s
  | 0x40 | 0x41 | 0x42 | 0x43 | 0x44 => poolJoin c s
  | _ => if 0x20 ≤ c.op.toNat && decide (c.op.toNat ≤ 0x2A) then enqueueUpd c s else fwArrive c s

/-- A header that 15 R370 refuses. -/
def refuseHeader (c : Cmd) (s : State) : State :=
  if c.op.toNat / 16 = 1 then refuseAtCheck c (profOf s (srchProf c)) stBadArg s else refuseFw c stBadArg s

/-- The state in which a packet's command is checked: the command has its number, and one from the PCIe function is owed a completion
(14 R361). -/
def checkedIn (p : Pkt) (s : State) : State :=
  { s with nextId := s.nextId + 1, pcie := { s.pcie with owed := s.pcie.owed + b2n (p.ap == 8) } }

/-- A command's last flit passes its check: the header is checked, and the command goes to its unit. While the part waits to enter device
DARKROOM it runs no further command (11 R279). Log 6 (DEDUCED). Log 28 (DESIGN CHOICE). Log 39 (DEDUCED). A command refused by its
header is answered at once. Log 114 (DESIGN CHOICE). -/
def packet (op : Byte) (p : Pkt) (s : State) : State :=
  if s.dev.st ≠ .run then s
  else
    let c := cmdOf op p s
    let s := checkedIn p s
    if !opcodes.contains op then refuse c stBadOpc s
    else if headerBad c then refuseHeader c s
    else if closing s then { s with dev := { s.dev with late := s.dev.late ++ [c] } }
    else dispatch c s

/-- The commands that came while the part waited to enter device DARKROOM are run when it serves again. Log 39 (DEDUCED). -/
def runLate (s : State) : State :=
  if s.dev.st ≠ .run || closing s then s
  else s.dev.late.foldl (fun s c => dispatch c s) { s with dev := { s.dev with late := [] } }

/-- The opcode and the packet of a command's words (15 Table 15.1). -/
def parsePkt (ap : Ap) (h : Word) (pay : List Word) : Byte × Pkt :=
  (BitVec.ofNat 8 (fld h 63 56),
   { ap := ap, cls := BitVec.ofNat 2 (fld h 55 54), ord := bitAt h 53, rsv52 := bitAt h 52, tag := BitVec.ofNat 14 (fld h 51 38),
     rsv37 := BitVec.ofNat 6 (fld h 37 32), arg := BitVec.ofNat 24 (fld h 23 0), pay := pay })

end Sys2Proof.Machine
end

