-- ==== Sys2Proof/Machine/Links.lean ====
section
/-! DEFINITION. The CLP port groups: flits sent and received, credits, replay and loss (14 R343-R353). -/

namespace Sys2Proof.Machine

/-! ### Sending (14 R343, R344, R347, Table 14.4) -/

/-- A group carries flits. -/
def linkUp (s : State) (g : Fin 8) : Bool := s.dev.st == .run && (s.pg[g].st == .up || s.pg[g].st == .drain)

/-- State code of the control payload. -/
def stateCode (s : State) (g : Fin 8) : Nat := if s.dev.st != .run then 2 else if s.pg[g].st == .drain then 1 else 0

/-- A CTRL or IDLE flit with the values of this CCLK; credits are granted in it, and a nak is sent once (14 R344, R347, R349).
Log 42 (DEDUCED). -/
def ctlFlit (g : Fin 8) (ctrl : Bool) (s : State) : Flit × State :=
  let p := s.pg[g]
  let cmd := p.cmdGrant + BitVec.ofNat 16 (grantable s g)
  let flit := p.rxNum + 512
  let nak := ctrl && p.nakSend && !p.tmode
  let t := if running s then s.tb.t else s.aon.coarse
  let f : Flit := {
    hdr := pack 32 [(if ctrl then 1 else 2, 31, 30), (p.txSeq.toNat, 29, 18)]
    w0 := pack 64 [(cmd.toNat, 63, 48), (flit.toNat, 47, 32), (if p.tmode then 0 else (p.rxSeq - 1).toNat, 31, 20), (b2n nak, 19, 19)]
    w1 := pack 64 [((p.hb + 1).toNat, 63, 48), (stateCode s g, 47, 45), (s.dev.devId.toNat, 44, 42), (tNs t, 31, 0)]
    w2 := 0, w3 := 0, crc := 0 }
  (sealFlit f, modPg g (fun p => { p with cmdGrant := cmd, flitGrant := flit, hb := p.hb + 1, nakSend := p.nakSend && !nak }) s)

/-- Flits leave in the next slots. -/
def emit (g : Fin 8) (l : List Flit) (s : State) : State := modPg g (fun p => { p with slot := p.slot + l.length, out := p.out ++ l }) s

/-- What injection has left of a flit goes into the next slot; a slot whose flit was dropped or held is sent as IDLE (14 R365). -/
def fillSlot (g : Fin 8) (f : Option Flit) (s : State) : State :=
  match f with
  | some f => emit g [f] s
  | none => let (x, s) := ctlFlit g false s; emit g [x] s

/-- A flit goes into the next slot, past injection; one held before follows in the next slot that is not a CTRL flit's (14 R344, R365). -/
def sendSlot (g : Fin 8) (f : Flit) (s : State) : State :=
  let (f, h, s) := brxFlit g true f s
  let s := fillSlot g f s
  match h with
  | none => s
  | some h =>
    if s.pg[g].slot % 5 = 4 then
      let (c, s) := ctlFlit g true s
      let (c, _, s) := brxFlit g true c s
      emit g [h] (fillSlot g c s)
    else emit g [h] s

/-- The CTRL flit of slot n with n mod 5 = 4, when it is the next (14 R344). -/
def ctrlSlot (g : Fin 8) (s : State) : State :=
  if s.pg[g].slot % 5 = 4 then let (f, s) := ctlFlit g true s; sendSlot g f s else s

/-- A DATA flit goes into the next slot that may carry one. -/
def sendData (g : Fin 8) (f : Flit) (s : State) : State := sendSlot g f (ctrlSlot g s)

/-- CTRL_FLIT_SEND: the slots up to the next CTRL slot go out as IDLE, and the CTRL flit with them (14 R344). -/
def ctrlSendRun (g : Fin 8) (s : State) : State :=
  if !linkUp s g then s
  else
    let n := (9 - s.pg[g].slot % 5) % 5
    ctrlSlot g ((List.range n).foldl (fun s _ => if s.pg[g].slot % 5 = 4 then s else let (f, s) := ctlFlit g false s; sendSlot g f s) s)

/-- LPI_HEARTBEAT: the IDLE flit of lane 0 in low-power idle (14 R352). -/
def lpiRun (g : Fin 8) (s : State) : State :=
  if s.pg[g].st = .lpi && (s.dev.st == .darkroom || s.dev.st == .waking) then
    let (f, s) := ctlFlit g false s
    emit g [f] s
  else s

/-! ### Replay (14 R349) -/

/-- A resend episode: every unacknowledged flit goes out again; after the eighth in a row without an advance the group retrains. -/
def resend (g : Fin 8) (s : State) : State :=
  let s := bump (pgReg g 0x18) (modPg g (fun p => { p with episodes := p.episodes + 1, ackAt := s.cclk }) s)
  let s := (s.pg[g].replay).foldl (fun s f => sendData g f s) s
  if s.pg[g].episodes ≥ 8 then toTrain g s else s

/-- REPLAY_TIMEOUT: the acknowledgement has not advanced for 1.0 us. -/
def replayTimeoutRun (g : Fin 8) (s : State) : State :=
  if !linkUp s g || s.pg[g].tmode || s.pg[g].replay.isEmpty then s
  else resend g (advanceTo (s.pg[g].ackAt + cclkPerUs s.part.grade) s)

/-- Flits that the host acknowledges leave the replay buffer. -/
def takeAck (g : Fin 8) (ack : BitVec 12) (s : State) : State :=
  match s.pg[g].replay with
  | [] => s
  | f :: _ =>
    let n := (ack - BitVec.ofNat 12 (fld f.hdr 29 18) + 1).toNat
    if n = 0 || n > s.pg[g].replay.length then s
    else modPg g (fun p => { p with replay := p.replay.drop n, episodes := 0, ackAt := s.cclk }) s

/-! ### Receiving (14 R346-R350) -/

/-- A packet with a word in a missing flit is dropped and counted (14 R350). -/
def dropPkt (g : Fin 8) (s : State) : State := bump (pgReg g 0x20) (modPg g (fun p => { p with cmdNum := p.cmdNum + 1 }) s)

/-- Flits are missing from a T-mode group: the packet begun, or one whose start was among them, is dropped (14 R350). Log 42 (DEDUCED). -/
def lose (g : Fin 8) (s : State) : State :=
  if s.pg[g].resync then s
  else dropPkt g (modPg g (fun p => { p with
    rx := [], ovr := false, resync := true, another := false
    lost := match p.rx with | [] => none | h :: t => some (fld h 31 24 - t.length, p.rxSeq) }) s)

/-- The packet that was begun before a loss must have ended before flit `f`: the words of `f` up to a start belong to another (14 R345). -/
def endedBefore (g : Fin 8) (f : Flit) (s : State) : Bool :=
  match s.pg[g].lost with
  | none => false
  | some (m, n) => decide (m ≤ 4 * (BitVec.ofNat 12 (fld f.hdr 29 18) - n).toNat)

/-- Reception resumes in flit `f` after a loss. Another packet that began in the missing flits, and has words in flits accepted since or
before `start_w`, is dropped too (14 R350). -/
def resumeAt (g : Fin 8) (f : Flit) (s : State) : State :=
  let s := if s.pg[g].another || (endedBefore g f s && fld f.hdr 16 15 != 0) then dropPkt g s else s
  modPg g (fun p => { p with resync := false, another := false, lost := none }) s

/-- A header's sequence number on a T-mode group: flits before it that never came are lost. -/
def gapCheck (g : Fin 8) (seq : BitVec 12) (s : State) : State :=
  let d := seq - s.pg[g].rxSeq
  if d = 0 || d.toNat ≥ 2048 then s
  else modPg g (fun p => { p with rxSeq := seq, rxNum := p.rxNum + d.setWidth 16 }) (lose g s)

/-- `n` lies in 1 to 32,767 (14 R347). -/
def credit (n : BitVec 16) : Bool := decide (1 ≤ n.toNat) && decide (n.toNat ≤ 32767)

/-- A packet of which the first word is at the head of the receive buffer begins: whether it lies within the command credit (14 R347). -/
def beginPkt (g : Fin 8) (s : State) : State := modPg g (fun p => { p with ovr := !credit (p.cmdGrant - p.cmdNum) }) s

/-- Takes the whole packets of a receive buffer (15 R345); one begun beyond the command credit is discarded and counted (14 R348). -/
def takePkts (g : Fin 8) : Nat → List Word → State → State
  | 0, _, s => s
  | _, [], s => modPg g (fun p => { p with rx := [], ovr := false }) s
  | k + 1, h :: t, s =>
    let n := fld h 31 24
    let s := if s.pg[g].rx.isEmpty then beginPkt g s else s
    if t.length < n then modPg g (fun p => { p with rx := h :: t }) s
    else
      let ovr := s.pg[g].ovr
      let s := modPg g (fun p => { p with rx := [], cmdNum := p.cmdNum + 1 }) s
      let x := parsePkt (pgAp g) h (t.take n)
      takePkts g k (t.drop n) (if ovr then bump (pgReg g 0x20) s else packet x.1 x.2 s)

/-- A DATA flit is accepted: its words join the packet under way, or begin at `start_w` after a loss. -/
def takeWords4 (g : Fin 8) (f : Flit) (s : State) : State :=
  let s := addStat (pgReg g 0x30) 1 (modPg g (fun p => { p with rxSeq := p.rxSeq + 1, rxNum := p.rxNum + 1, nakEpisode := false }) s)
  let ws := [f.w0, f.w1, f.w2, f.w3].take (fld f.hdr 14 9 / 8)
  if s.pg[g].resync then
    if bitAt f.hdr 17 then takePkts g 8 (ws.drop (fld f.hdr 16 15)) (resumeAt g f s)
    else modPg g (fun p => { p with another := p.another || endedBefore g f s }) s
  else takePkts g 8 (s.pg[g].rx ++ ws) s

/-- A DATA flit that is not accepted is counted (14 R346, R350); on an L-mode group a nak is asked for once per episode (R349). -/
def rejectFlit (g : Fin 8) (s : State) : State :=
  let s := bump (pgReg g 0x10) s
  if s.pg[g].tmode then s
  else modPg g (fun p => { p with nakSend := p.nakSend || !p.nakEpisode, nakEpisode := true }) s

/-- A DATA flit beyond the flit credit breaks the link (14 R348). -/
def withinCredit (g : Fin 8) (f : Flit) (s : State) : State :=
  if credit (s.pg[g].flitGrant - s.pg[g].rxNum) then takeWords4 g f s else toTrain g (bump (pgReg g 0x10) s)

/-- A DATA flit that has got past injection. -/
def dataIn (g : Fin 8) (fecOk : Bool) (f : Flit) (s : State) : State :=
  let seq : BitVec 12 := BitVec.ofNat 12 (fld f.hdr 29 18)
  if !linkUp s g then s
  else if s.pg[g].tmode then
    if !fecOk || !crcGood f then lose g (rejectFlit g s)
    else
      let s := gapCheck g seq s
      if seq = s.pg[g].rxSeq then withinCredit g f s else rejectFlit g s
  else if crcGood f && seq == s.pg[g].rxSeq then withinCredit g f s
  else rejectFlit g s

/-- A CTRL or IDLE flit that has got past injection: heartbeat, credit, acknowledgement, and a resend when it asks for one (14 R346, R347,
R349-R351). -/
def ctrlIn (g : Fin 8) (f : Flit) (s : State) : State :=
  if !linkUp s g then s
  else if !crcGood f then bump (pgReg g 0x10) s
  else
    let s := modPg g (fun p => { p with hbAt := s.cclk, hostCrd := BitVec.ofNat 16 (fld f.w0 47 32) }) s
    if s.pg[g].tmode then gapCheck g (BitVec.ofNat 12 (fld f.hdr 29 18)) s
    else
      let s := takeAck g (BitVec.ofNat 12 (fld f.w0 31 20)) s
      if bitAt f.w0 19 then resend g s else s

/-- A flit of the host passes injection, and one held before follows it, each with the finding of its own FEC (14 R365). -/
def receive (g : Fin 8) (fecOk : Bool) (f : Flit) (s : State) : State :=
  let was := s.brx[brxN g].heldFec
  let take := fun (ok : Bool) (s : State) (f : Flit) => if isData f then dataIn g ok f s else ctrlIn g f s
  let (f, h, s) := brxFlit g false f s
  let s := if f.isNone then { s with brx := s.brx.set (brxN g) { s.brx[brxN g] with heldFec := fecOk } } else s
  h.toList.foldl (take was) (f.toList.foldl (take fecOk) s)

/-- DATA_FLIT_RECEIVE (14 R346, R348-R350, R365). Log 6 (DEDUCED). -/
def dataFlitRun (g : Fin 8) (f : Flit) (fecOk : Bool) (s : State) : State :=
  if !linkUp s g || !isData f then s
  else
    receive g fecOk f s

/-- CTRL_FLIT_RECEIVE: a CTRL or an IDLE flit of the host. -/
def ctrlFlitRun (g : Fin 8) (f : Flit) (s : State) : State :=
  if !linkUp s g || isData f then s
  else
    receive g true f s

/-- TRAINING_COMPLETE: ports 0 to 7 are the port groups, 8 and 9 the cascade ports (14 R353). -/
def trainedRun (port : Fin 10) (pol : Byte) (rev : Bool) (s : State) : State :=
  if s.dev.st ≠ .run then s
  else if port.val < 8 then pgTrained (pgn port) (pol.setWidth 4) rev s
  else portTrained (port.val == 8) pol s

end Sys2Proof.Machine
end

