-- ==== Sys2Proof/Machine/Egress.lean ====
section
/-! DEFINITION. Replies leave: the reply stores of the port groups and the completion ring of the PCIe function (05 R129-R133; 14 R345,
R347, R360-R363). -/

namespace Sys2Proof.Machine

/-! ### Order (05 R131-R133) -/

/-- An ordered reply waits behind an ordered search or reply of its group whose command passed its check earlier. -/
def behind (s : State) (r : Reply) : Bool :=
  (srchsOf s r.ap).any (fun q => q.ord && decide (q.cmd.id < r.id)) ||
    s.replies.any fun x => x.ap == r.ap && x.ord && decide (x.id < r.id)

/-- The CCLK in which a reply of group `g` becomes eligible. -/
def eligible (s : State) (g : Fin 8) (r : Reply) : Option Nat :=
  if !r.ord then some r.ready
  else if behind s r then none
  else some (match s.pg[g].lastOrd with | some n => max r.ready (n + 1) | none => r.ready)

/-- The first of a list of (CCLK, reply) by CCLK, then in the order of the checks. -/
def firstReply : List (Nat × Reply) → Option (Nat × Reply)
  | [] => none
  | x :: t => match firstReply t with
    | none => some x
    | some y => if y.1 < x.1 || (y.1 == x.1 && decide (y.2.id < x.2.id)) then some y else some x

/-- The reply of group `g` whose flit is next: one begun goes on, for replies do not interleave. Log 20 (DESIGN CHOICE). -/
def nextReply (s : State) (g : Fin 8) : Option (Nat × Reply) :=
  let mine := s.replies.filter (·.ap == pgAp g)
  match mine.find? fun r => decide (r.sent > 0) with
  | some r => some (r.ready, r)
  | none => firstReply (mine.filterMap fun r => (eligible s g r).map fun e => (e, r))

/-! ### What a reply that has left leaves behind -/

/-- The stamp that a reply carried was in use in CCLK `t` (06 R160, R161). Log 108 (DEDUCED). -/
def noteStamp (r : Reply) (t : Nat) (s : State) : State :=
  match r.stamp with
  | none => s
  | some (l, v) => modChan l (fun k =>
      if (mget k.stamps v.toNat).isSome || k.stamp == v then
        { k with stamps := mset k.stamps v.toNat { mgetD k.stamps v.toNat ⟨0, 0⟩ with used := t } }
      else k) s

/-- CCLK stops: the part is in device DARKROOM (11 R279); every group enters LPI, PPS_OUT and the mailbox pins rest, and proposals end, so
that a countersign still to run finds none (14 R352; 16 R400; 18 R428). -/
def stopClock (s : State) : State :=
  { s with
    prot := { s.prot with props := [], ended := [] }
    dev := { s.dev with st := .darkroom }
    pins := { s.pins with arrRet := true }
    mbx := { s.mbx with busyA := none, busyB := none }
    tb := { s.tb with ppsOutEnd := none }
    pg := Vector.ofFn fun g => { s.pg[g] with st := if regB s (pgReg g 0) 31 then .lpi else .down } }

/-- What happens 1 CCLK after a reply's last flit (11 R279; 14 R364; 15 R387). -/
def afterReply (x : After) (s : State) : State :=
  match x with
  | .nothing => s
  | .deviceReset => deviceReset (advance 1 s)
  | .stopClock => stopClock (advance 1 s)
  | .breach t x => startBreach t x (advance 1 s)

/-- A reply leaves the store. -/
def replyOut (r : Reply) (s : State) : State := afterReply r.after { s with replies := s.replies.filter (·.id != r.id) }

/-- The last flit of a reply has entered its transmit path in CCLK `t`, or its marker the completion ring: it leaves the store, and the
stamp it carried was in use then (06 R161). Log 108 (DEDUCED). -/
def replyGone (r : Reply) (t : Nat) (s : State) : State := replyOut r (noteStamp r t s)

/-! ### The port groups -/

/-- Words of a reply packet (05 Table 5.1). -/
def replyWords (r : Reply) : List Word :=
  pack 64 [(r.op.toNat, 63, 56), (r.status.toNat, 55, 48), (r.tag.toNat, 47, 34), (r.pay.length, 31, 24), (r.info.toNat, 23, 0)] :: r.pay

/-- DATA flit `n` of a reply: up to four words, the rest zero (14 R343, R345). -/
def replyFlit (seq : BitVec 12) (r : Reply) (n : Nat) : Flit :=
  let l := ((replyWords r).drop (4 * n)).take 4
  sealFlit {
    hdr := pack 32 [(seq.toNat, 29, 18), (b2n (n == 0), 17, 17), (8 * l.length, 14, 9)]
    w0 := nth l 0 0, w1 := nth l 1 0, w2 := nth l 2 0, w3 := nth l 3 0, crc := 0 }

/-- A group may send a DATA flit: it is up, within the host's flit credit and, in L-mode, with room in its replay buffer (14 R347, R349). -/
def maySend (s : State) (g : Fin 8) : Bool :=
  linkUp s g && credit (s.pg[g].hostCrd - s.pg[g].txNum) && (s.pg[g].tmode || decide (s.pg[g].replay.length < 256))

/-- `CLP_RS_WAIT_MAX` of a group: the longest wait of an ordered reply (05 R132). -/
def noteWait (g : Fin 8) (n : Nat) (s : State) : State :=
  let a := 0x48004 + g.val * 0x20
  setReg a (BitVec.ofNat 32 (max (getReg s a).toNat (min n (2 ^ 32 - 1)))) s

/-- A DATA flit of a reply goes out: numbered, counted, and kept for replay in L-mode. A CTRL flit whose slot comes before it still names
it as the next (14 Table 14.3, R344). -/
def sendReplyFlit (g : Fin 8) (r : Reply) (s : State) : State :=
  let s := ctrlSlot g s
  let f := replyFlit s.pg[g].txSeq r r.sent
  let s := modPg g (fun p => { p with
    txSeq := p.txSeq + 1, txNum := p.txNum + 1, txFree := s.cclk + 1
    ackAt := if p.replay.isEmpty then s.cclk else p.ackAt
    replay := if p.tmode then p.replay else p.replay ++ [f] }) (addStat (pgReg g 0x38) 1 s)
  sendData g f s

/-- A reply's flits are counted as one more sent. -/
def countSent (id : Nat) (s : State) : State :=
  { s with replies := s.replies.map fun r => if r.id = id then { r with sent := r.sent + 1 } else r }

/-- The last ordered reply of a group left in CCLK `t`. -/
def noteOrdered (g : Fin 8) (r : Reply) (t : Nat) (s : State) : State := if r.ord then modPg g (fun p => { p with lastOrd := some t }) s else s

/-- The next flit of a port group's replies enters the transmit path (05 R131, R132); a reply to be discarded goes without a flit
(14 R351). Log 20 (DESIGN CHOICE). -/
def egressPg (g : Fin 8) (s : State) : State :=
  if !running s then s
  else match nextReply s g with
    | none => s
    | some (e, r) =>
      if r.id < s.pg[g].discardTo then
        let s := advanceTo (max e s.pg[g].txFree) s
        replyOut r (noteOrdered g r s.cclk s)
      else if !maySend s g then s
      else
        let s := advanceTo (max e s.pg[g].txFree) s
        let s := if r.ord && r.sent == 0 then noteWait g (e - r.ready) s else s
        let s := countSent r.id (sendReplyFlit g r s)
        if r.sent + 1 < slotsFor r.pay.length then s else replyGone r s.cclk (noteOrdered g r s.cclk s)

/-! ### The PCIe rings (14 R360-R363) -/

/-- A reply and its marker enter the completion ring, which may request then (14 R361, R362). -/
def writeCq (r : Reply) (s : State) : State :=
  let n := cqSize s
  let l := replyWords r
  let mark := pack 64 [(b2n s.pcie.phase, 63, 63), (l.length, 8, 0)]
  let w := s.pcie.cqW
  let cq := ((mark :: l).zipIdx).foldl (fun m x => mset m ((w + x.2) % n) x.1) s.pcie.cq
  let w' := w + 1 + l.length
  cqJudge { s with pcie := { s.pcie with
    cq := cq, cqW := w' % (2 * n), phase := if w % n + 1 + l.length ≥ n then !s.pcie.phase else s.pcie.phase
    markers := s.pcie.markers + 1, oldest := some (s.pcie.oldest.getD s.cclk) } }

/-- The next reply of the PCIe function, in the order in which they complete (05 R133; 14 R361). -/
def egressPcie (s : State) : State :=
  if !running s then s
  else match firstReply ((s.replies.filter (·.ap == 8)).map fun r => (r.ready, r)) with
    | none => s
    | some (e, r) =>
      let s := advanceTo e s
      if r.id < s.pcie.discardTo then replyOut r s
      else
        let s := { s with pcie := { s.pcie with owed := s.pcie.owed - 1 } }
        if regB s 0x4A010 30 then replyGone r s.cclk (writeCq r s) else replyOut r s

/-- A unit still holds commands in its queue. -/
def unitsWait (s : State) : Bool :=
  !(s.se.queue.isEmpty && s.qm.unit.queue.isEmpty && s.pool.unit.queue.isEmpty && s.pool.asks.isEmpty)

/-- The clock moves on and the units take their commands, while they hold any, until `p` holds (15 R373). Log 28 (DESIGN CHOICE). -/
def serveUntil (p : State → Bool) : Nat → State → State
  | 0, s => s
  | k + 1, s => if p s || !unitsWait s then s else serveUntil p k (serveUnits (advance 1 s))

/-- The reply of access point `ap` that is next, with the CCLK in which it is eligible. -/
def replyNext (s : State) (ap : Ap) : Option (Nat × Reply) :=
  if h : ap.val < 8 then nextReply s ⟨ap.val, h⟩ else firstReply ((s.replies.filter (·.ap == 8)).map fun r => (r.ready, r))

/-- REPLY_EGRESS of access point `ap`. -/
def replyEgressRun (ap : Ap) (s : State) : State :=
  let s' := if running s then serveUntil (fun s => (replyNext s ap).any (·.1 ≤ s.cclk)) 256 s else s
  let s := if (replyNext s' ap).isSome then s' else s
  if h : ap.val < 8 then egressPg ⟨ap.val, h⟩ s else egressPcie s

/-- Words of the submission ring up to the tail. -/
def sqAhead (s : State) : Nat := (s.pcie.sqTail + 2 * sqSize s - s.pcie.sqHead) % (2 * sqSize s)

/-- The function fetches (14 R360, R363; 11 R279). -/
def fetching (s : State) : Bool :=
  s.dev.st == .run && s.pcie.up && regB s 0x4A010 31 && !s.pcie.fetchErr && !closing s

/-- COMMAND_FETCH: the words of the next whole packet arrive (14 R360, R361). -/
def commandFetchRun (ws : List Word) (s : State) : State :=
  match ws with
  | [] => s
  | h :: pay =>
    if !fetching s || pay.length != fld h 31 24 || decide (ws.length > sqAhead s) || decide ((s.pcie.owed + 1) * 257 > cqFree s) then s
    else
      let x := parsePkt 8 h pay
      packet x.1 x.2 { s with pcie := { s.pcie with sqHead := (s.pcie.sqHead + ws.length) % (2 * sqSize s) } }

/-- FETCH_ERROR (14 R363). -/
def fetchErrorRun (s : State) : State :=
  if !fetching s || sqAhead s == 0 then s else bump 0x4A028 { s with pcie := { s.pcie with fetchErr := true } }

/-- A message of vector `v` leaves with the data of its table entry to the entry's address, or its PBA bit is set while it is masked (14
R359, R362). Log 121 (DESIGN CHOICE). -/
def sendMsix (v : Nat) (s : State) : State :=
  if bitAt s.pcie.mask v then { s with pcie := { s.pcie with pba := s.pcie.pba ||| pack 64 [(1, v, v)] } }
  else { s with pcie := { s.pcie with msgs := s.pcie.msgs ++ [BitVec.ofNat 6 v], sent := s.pcie.sent ++ [mgetD s.pcie.vecs v (0, 0)] } }

/-- MSIX_MESSAGE: the source that has begun to request is served. -/
def msixMessageRun (s : State) : State :=
  if !running s || !s.pcie.up then s
  else match s.pcie.reqs with
    | [] => s
    | v :: t => sendMsix v { s with pcie := { s.pcie with reqs := t } }

/-- MSIX_UNMASK: the host writes entry `v` of the MSI-X table in BAR2, with its address, data and mask bit; a pending message leaves on the
unmask (14 Table 14.8, R362). Log 121 (DESIGN CHOICE). -/
def msixUnmaskRun (v : Fin 64) (addr : Word) (data : Reg) (masked : Bool) (s : State) : State :=
  if !running s || !s.pcie.up then s
  else
    let bit := pack 64 [(1, v.val, v.val)]
    let vecs := if addr = 0 && data = 0 then mdel s.pcie.vecs v.val else mset s.pcie.vecs v.val (addr, data)
    let s := { s with pcie := { s.pcie with vecs := vecs } }
    if masked then { s with pcie := { s.pcie with mask := s.pcie.mask ||| bit } }
    else
      let s' := { s with pcie := { s.pcie with mask := s.pcie.mask &&& ~~~bit, pba := s.pcie.pba &&& ~~~bit } }
      if bitAt s.pcie.pba v.val then sendMsix v.val s' else s'

/-- COAL_TIMEOUT: the oldest unsignalled marker is `coal_ns` ns old (14 R362). -/
def coalTimeoutRun (s : State) : State :=
  let ns := regF s 0x4A014 15 0
  match s.pcie.oldest with
  | none => s
  | some t => if !running s || ns == 0 || !regB s 0x4A010 29 then s else cqRequest (advanceTo (t + nsToCclk s.part.grade ns) s)

end Sys2Proof.Machine
end

