-- ==== Sys2Proof/Machine/Release.lean ====
section
/-! DEFINITION. Work queues, and accesses that have waited for a bank group or a lent page (10 R252, R253; 11 R281; 13 R336). -/

namespace Sys2Proof.Machine

/-! ### When a head is released (10 R252) -/

/-- Words of the item at the head of a work queue; a poisoned word 0 counts as an item of one word. -/
def headLen (s : State) (d : QDesc) : Nat := min (peekLen s d d.rd) (depth d)

/-- Word 0 of the item at the head as it reads. Log 69 (DEDUCED). -/
def headWord (s : State) (d : QDesc) : Word :=
  match rawWord s (qAddr d d.rd) with
  | some x => let r := decodeWord x; if r.2.1 = .poisoned then 0 else r.1
  | none => 0

/-- The first CCLK from `c` on in which T is `t` or later; none while T stands. Log 69 (DEDUCED). -/
def dueFrom (s : State) (c t : Nat) : Option Nat :=
  let s := advanceTo c s
  if t ≤ s.tb.t then some c else if s.tb.wait then none else some (cclkOfTime t s)

/-- The time of a release at `tsec` and `ns`: d is negative until then (10 R252). -/
def releaseTime (t tsec ns : Nat) : Nat :=
  let x := sgn (BitVec.ofInt 16 ((tSec t : Int) - tsec))
  if x > 0 || (x == 0 && decide (tNs t ≥ ns)) then t else tOf ((tSec t : Int) - x).toNat ns 0

/-- The commands that their executing units have yet to take (15 Table 15.2). -/
def unitCmds (s : State) : List Cmd :=
  s.ch.toList.flatMap (·.upd.queue) ++ s.se.queue ++ s.qm.unit.queue ++ s.pool.unit.queue ++ s.pool.asks ++ s.fw.queue

/-- The first CCLK in which the head of queue `q` may be released; none where it waits for something without a time. -/
def releaseAt (s : State) (q : Nat) (since : Option Nat) : Option Nat :=
  let d := qDesc s q
  let c := max (if visible d s.cclk = 0 then s.cclk + 1 else s.cclk) (max s.qm.relAny (mgetD s.qm.relAt q 0))
  let w := headWord s d
  if !d.enable || !d.work || depth d == 0 || (unitCmds s).any (·.wq == some (BitVec.ofNat 18 q)) then none
  else match fld w 51 50 with
    | 0 => some c
    | 1 => dueFrom s c (releaseTime (advanceTo c s).tb.t (fld w 47 32) (fld w 29 0))
    | 2 =>
      let g := fld w 55 52
      if !cygOn s g then none
      else match since with
        | none => some c
        | some t0 => dueFrom s c (crossDue s g (BitVec.ofNat 32 (fld w 31 0)) t0)
    | _ => none

/-- The queue whose head is released first: the earliest CCLK, then the lowest number. -/
def firstHead (s : State) : List (Nat × Option Nat) → Option (Nat × Nat)
  | [] => none
  | x :: t =>
    match releaseAt s x.1 x.2, firstHead s t with
    | none, r => r
    | some c, none => some (c, x.1)
    | some c, some r => if r.1 < c then some r else some (c, x.1)

/-! ### The release (10 R252, R253) -/

/-- Runs the command of a released item as if access point `ap` had sent it. -/
def runReleased (q : Nat) (ap : Ap) (h : Word) (pay : List Word) (s : State) : State :=
  let x := parsePkt ap h pay
  let (c, s) := arrive x.1 x.2 s
  let c := { c with wq := some (BitVec.ofNat 18 q) }
  if !opcodes.contains c.op then refuse c stBadOpc s else if headerBad c then refuseHeader c s else dispatch c s

/-- The WORK_DONE reply of an item with a poisoned word. -/
def poisonedItem (q : Nat) (ap : Ap) (h : Word) (s : State) : State :=
  let x := parsePkt ap h []
  let (c, s) := arrive 0 x.2 s
  refuse { c with wq := some (BitVec.ofNat 18 q) } stPoison (bump 0x70028 s)

/-- Takes the item at the head of queue `q` in this CCLK; no other work queue is released in it (10 R252). -/
def releaseItem (q : Nat) (s : State) : State :=
  let d := qDesc s q
  let n := headLen s d
  let (ws, bad, _, s) := takeWords d n d.rd 0 s
  let s := { s with qm := { s.qm with heads := mdel s.qm.heads q, relAt := mset s.qm.relAt q (s.cclk + 1), relAny := s.cclk + 1 } }
  let s := dropWords q n 0 s.cclk s
  let s := noteHead q (timeAt (s.cclk + 1) s) s
  if bad then poisonedItem q d.ap (nth ws 1 0) s else runReleased q d.ap (nth ws 1 0) (ws.drop 2) s

/-- WORK_ITEM_RELEASE: the next item is released (10 R252); while the part waits to enter device DARKROOM, none (11 R279). -/
def workReleaseRun (s : State) : State :=
  if s.dev.st ≠ .run || closing s then s
  else
    let s' := serveUntil (fun s => (firstHead s s.qm.heads).any (·.1 ≤ s.cclk)) 256 s
    match firstHead s' s'.qm.heads with
    | none => s
    | some (c, q) => releaseItem q (serveUnits (advanceTo c s'))

/-- WORK_DONE: a released command has ended, and its reply goes to the queue's `reply_q` (10 R253). -/
def workDoneRun (q : BitVec 18) (s : State) : State :=
  if !running s then s
  else
    let next := fun (s : State) => firstReply ((s.qm.done.filter (·.1 == q)).map fun x => (x.2.ready, x.2))
    let s' := serveUntil (fun s => (next s).any (·.1 ≤ s.cclk)) 256 s
    match next s' with
    | none => s
    | some (e, r) =>
      let s := serveUnits (advanceTo e s')
      let s := { s with qm := { s.qm with done := s.qm.done.filter (·.2.id != r.id) } }
      afterReply r.after (post 12 (qDesc s q.toNat).replyQ
        { type := 0x30, source := q, w1 := nth (replyWords r) 0 0, w2 := nth r.pay 0 0, w3 := nth r.pay 1 0, w4 := nth r.pay 2 0 } s)

/-! ### Accesses that have waited (11 R281, 13 R336) -/

/-- The stream commands that waited for their bank group go ahead of those in the queue, in slot C from CCLK `due` on (09 R218, R230; 11
R281). -/
def streamAgain (due : Nat) (cs : List Cmd) (s : State) : State :=
  let s := seServe (advanceTo (due - 1) s)
  seServe (advanceTo due { s with se := { s.se with queue := cs ++ s.se.queue, free := max s.se.free due } })

/-- BANK_GROUP_WAKE_COMPLETE: the group is ON and the accesses that waited for it are made (11 R281). Log 27 (DESIGN CHOICE). -/
def bankGroupRun (g : Fin 7) (s : State) : State :=
  if !running s then s
  else match s.bgWait.filter (·.g == g.val) with
    | [] => s
    | w :: t =>
      let (stream, rest) := ((w :: t).filterMap (·.cmd)).partition fun c => c.op == 0x30 || c.op == 0x31
      let on := fun (s : State) => { s with bgCur := mdel s.bgCur g.val, bgWait := s.bgWait.filter (·.g != g.val) }
      let s := if stream.isEmpty then on (advanceTo w.due s) else streamAgain w.due stream (on s)
      rest.foldl (fun s c => fwExec false c s) s

/-- LENT_PAGE_ACCESS: the test of the page stops, and the accesses that waited for it are made (13 R336). Log 27 (DESIGN CHOICE). -/
def lentPageRun (s : State) : State :=
  if !running s || s.lentWait.isEmpty then s
  else
    let l := s.lentWait
    let lent := s.sramProof.isSome
    let s := interruptPage { s with lentWait := [] }
    l.foldl (fun s c => fwExec lent c s) s

end Sys2Proof.Machine
end

