-- ==== Sys2Proof/Machine/Service.lean ====
section
/-! DEFINITION. The SMBus target, the test access port and the VID pins (18 R427, R434-R437, R441). -/

namespace Sys2Proof.Machine

/-! ### SMBus (18 R434, Table 18.9) -/

/-- CRC-8 of SMBus over bytes: polynomial x^8 + x^2 + x + 1. Log 38 (PRESUMED). -/
def smbCrc (l : List Byte) : Byte :=
  l.foldl (fun c b => (List.range 8).foldl (fun c _ => if c.getLsbD 7 then (c <<< 1) ^^^ 0x07 else c <<< 1) (c ^^^ b)) 0

/-- The part answers an SMBus read with bytes, in the order in which they go out, and their PEC: `head` is what the host and the part have
sent before them. -/
def answerSmb (head l : List Byte) (s : State) : State := { s with svc := { s.svc with smb := l, pec := smbCrc (head ++ l) } }

/-- The bytes before the data of a read command with code `c`: address and write, code, address and read, and the count of a block of `n`
bytes. -/
def smbHead (s : State) (c : Byte) (n : Option Nat) : List Byte :=
  let a := 2 * (0x4C + s.pins.smbAddr.toNat)
  [BitVec.ofNat 8 a, c, BitVec.ofNat 8 (a + 1)] ++ (match n with | some n => [BitVec.ofNat 8 n] | none => [])

/-- SMB_ALERT_N is released. -/
def releaseAlert (s : State) : State := { s with pins := { s.pins with alertLow := false } }

/-- The highest reading of the six sensors (11 R269). -/
def junction (s : State) : BitVec 16 :=
  match s.dev.temps with
  | [] => 0
  | t :: l => l.foldl (fun m x => if sgn x > sgn m then x else m) t

/-- TEMP: Read Word, low byte first. The watchdog's reading, while the core domain is stopped, is a free value: the junction then has a
temperature that no command brings. Log 38 (PRESUMED). -/
def tempRun (s : State) : State :=
  let (v, s) := if running s then (junction s, s) else let (w, s) := draw s; (w.setWidth 16, s)
  answerSmb (smbHead s 1 none) [v.setWidth 8, v.extractLsb' 8 8] s

/-- Code of the device state. -/
def devCode : DevSt → Nat
  | .held | .shutdown => 0
  | .darkroom | .waking => 1
  | .run => 2
  | .startup => 3

/-- The byte of STATE. A core domain held in reset has no level, no firmware and no part in the ring. Log 38 (PRESUMED). -/
def stateByte (s : State) : Byte :=
  let on := s.dev.st != .held && s.dev.st != .shutdown
  pack 8 [(devCode s.dev.st, 7, 6), (if s.dev.st == .shutdown then 3 else if on then s.dev.level.toNat else 0, 5, 4), (b2n s.aon.shut, 3, 3),
    (b2n (factoryState s), 2, 2), (b2n (on && ringServes s), 1, 1), (b2n (on && s.fw.up), 0, 0)]

/-- STATE: Read Byte; SMB_ALERT_N is released. -/
def stateRun (s : State) : State := releaseAlert (answerSmb (smbHead s 2 none) [stateByte s] s)

/-- IDENT: Block Read of DEV_ID, most significant byte first. -/
def identRun (s : State) : State :=
  let v := devIdReg s
  answerSmb (smbHead s 3 (some 4)) [v.extractLsb' 24 8, v.extractLsb' 16 8, v.extractLsb' 8 8, v.setWidth 8] s

/-- WAKE: Send Byte; a wake source of device DARKROOM when enabled (11 R280). -/
def wakeRun (s : State) : State := darkroomWakeRun .smbus s

/-- TEMPS: Block Read of T0 to T5, the most significant byte of each first; 0x8000 each while the core domain is stopped. Log 38
(PRESUMED). -/
def tempsRun (s : State) : State :=
  answerSmb (smbHead s 5 (some 12)) ((List.range 6).flatMap fun i =>
    let v : BitVec 16 := if running s then nth s.dev.temps i 0 else 0x8000
    [v.extractLsb' 8 8, v.setWidth 8]) s

/-- ALERT_RESPONSE_READ: a part that alerts answers with its address, and SMB_ALERT_N is released. -/
def alertReadRun (s : State) : State :=
  if s.pins.alertLow then releaseAlert (answerSmb [0x19] [pack 8 [(0x4C + s.pins.smbAddr.toNat, 7, 1)]] s) else answerSmb [] [] s

/-! ### Slow pins (18 R423, Table 18.3) -/

/-- The slow pins that carry a digital signal. -/
inductive SlowPin where
  | resetN | pwrGood | factoryN | cascId (i : Fin 3) | spiClk | spiCsN | spiIo (i : Fin 4) | vid (i : Fin 5) | arrRet
  | sluiceN (i : Fin 8) | irqN (i : Fin 2) | aliveN | thermN | mbxbsyAN | mbxbsyBN | ppsIn | ppsOut | smbClk | smbDat | smbAlertN
  | smbAddr (i : Fin 2) | pciePerstN
  deriving DecidableEq, Repr

/-- Level of a pin: driven, let go by an open-drain output, high-impedance, or none that the spec states or a command brings. -/
inductive PinLevel where
  | low | high | released | highZ | unstated
  deriving DecidableEq, Repr

/-- A driven output. -/
def driven (b : Bool) : PinLevel := if b then .high else .low

/-- An open-drain output, low where `b`. -/
def openDrain (b : Bool) : PinLevel := if b then .low else .released

/-- The level of a slow pin: unpowered while VDDIO is off, as in reset while the core domain is held (18 Table 18.3). -/
def slowPin (s : State) (p : SlowPin) : PinLevel :=
  let off := s.pins.vid.isNone
  let reset := s.dev.st == .held
  let out := fun (l : PinLevel) => if off then .highZ else l
  match p with
  | .resetN => driven s.pins.resetN
  | .pwrGood => driven s.pins.pwrGood
  | .factoryN => driven s.pins.factoryN
  | .cascId i => driven (s.dev.devId.getLsbD i)
  | .smbAddr i => driven (s.pins.smbAddr.getLsbD i)
  | .spiClk => out (if reset then .low else .unstated)
  | .spiCsN => out (if reset then .high else .unstated)
  | .spiIo _ => out (if reset then .highZ else .unstated)
  | .vid i => match s.pins.vid with | some v => driven (v.getLsbD i) | none => .highZ
  | .arrRet => out (driven s.pins.arrRet)
  | .sluiceN i => openDrain (!off && !reset && !sluiceHold s i)
  | .irqN i => openDrain (!off && !reset && irqLow s i)
  | .aliveN => openDrain (!off && s.pins.aliveLow)
  | .thermN => openDrain (!off && s.pins.thermLow)
  | .mbxbsyAN => openDrain (!off && !reset && s.mbx.busyA.isSome)
  | .mbxbsyBN => openDrain (!off && !reset && s.mbx.busyB.isSome)
  | .ppsOut => out (driven (ppsOutHigh s))
  | .smbAlertN => openDrain (!off && s.pins.alertLow)
  | .ppsIn | .smbClk | .smbDat | .pciePerstN => .unstated

/-! ### Test access port (18 R435-R437) -/

/-- IDCODE of both grades (18 R435). -/
def idcode : BitVec 32 := 0x12816A6D

/-- The instruction that a code of Table 18.10 selects; every other code acts as BYPASS. -/
def tapCode (c : Byte) : Byte := if ([0x00, 0x01, 0x02, 0x03, 0x04, 0x05, 0x06, 0x20] : List Byte).contains c then c else 0xFF

/-- A high-speed pair (18 Table 18.2). -/
inductive PairName where
  | clpTx | clpRx | cascTx | cascRx | pcieTx | pcieRx
  deriving DecidableEq, Repr

/-- A cell of the boundary-scan register: of a digital pin 0 control, 1 output, 2 input; of a TX pair 0 control, 1 data; of an RX pair 0
the P and 1 the N test receiver (18 R436). -/
inductive BsCell where
  | pin (p : SlowPin) (k : Fin 3)
  | pair (n : PairName) (lane : Nat) (k : Fin 2)
  deriving DecidableEq, Repr

/-- The digital pins of column 1 and of column 44 in ascending row order (18 Table 18.3). -/
def column1 : List SlowPin :=
  [.resetN, .pwrGood, .factoryN, .cascId 0, .cascId 1, .cascId 2, .spiClk, .spiCsN, .spiIo 0, .spiIo 1, .spiIo 2, .spiIo 3] ++
    (List.finRange 5).map .vid ++ [.arrRet]
def column44 : List SlowPin :=
  (List.finRange 8).map .sluiceN ++ [.irqN 0, .irqN 1, .aliveN, .thermN, .mbxbsyAN, .mbxbsyBN, .ppsIn, .ppsOut, .smbClk, .smbDat, .smbAlertN,
    .smbAddr 0, .smbAddr 1, .pciePerstN]

/-- The 320 cells from TDI to TDO (18 R436). -/
def bsCells : List BsCell :=
  let pins := fun (l : List SlowPin) => l.flatMap fun p => (List.finRange 3).map (BsCell.pin p)
  let pairs := fun (n : PairName) (k : Nat) => (List.range k).flatMap fun i => (List.finRange 2).map (BsCell.pair n i)
  pins column1 ++ pairs .clpTx 32 ++ pairs .clpRx 32 ++ pairs .cascTx 16 ++ pairs .cascRx 16 ++ pairs .pcieTx 2 ++ pairs .pcieRx 2 ++ pins column44

/-- The boundary-scan register captures the pins: the input cell of a pin with a level holds it, the other cells a free value.
Log 37 (PRESUMED). -/
def captureCells (s : State) : State :=
  let (v, s) := (List.range 5).foldl (fun (x : BitVec 320 × State) i =>
    let (w, s) := draw x.2
    (x.1 ||| (w.setWidth 320 <<< (64 * i)), s)) (0, s)
  let bit := fun (i : Nat) => match bsCells[i]? with
    | some (.pin p 2) => match slowPin s p with | .low => false | .high => true | _ => v.getLsbD i
    | _ => v.getLsbD i
  { s with svc := { s.svc with bsr := maskOf 320 320 bit } }

/-- The current instruction selects the boundary-scan register; HIGHZ and CLAMP select the bypass register. Log 37 (PRESUMED). -/
def selectsCells (s : State) : Bool := ([0x00, 0x02, 0x05, 0x06] : List Byte).contains s.svc.ir

/-- The selected data register as it is captured: its length and content (18 R435-R437). -/
def tapRegister (s : State) : Nat × BitVec 320 :=
  if selectsCells s then (320, s.svc.bsr)
  else if s.svc.ir = 0x01 then (32, idcode.setWidth 320)
  else if s.svc.ir = 0x20 then
    (65, pack 320 [(b2n s.svc.done, 64, 64), (s.svc.status.toNat, 63, 56), (s.svc.rdata.toNat, 31, 0)])
  else (1, 0)

/-- Code `c` becomes the current instruction: one that drives pins holds the core domain as RESET_N low does, and leaving it acts as a
RESET_N release (18 R436). One that selects the boundary-scan register has it capture the pins. -/
def setIr (c : Byte) (x : Straps) (s : State) : State :=
  let s' := { s with svc := { s.svc with ir := c } }
  let s' := if selectsCells s' then captureCells s' else s'
  if tapHolds s' then holdCore s'
  else if tapHolds s && s.pins.resetN && s.pins.pwrGood then warmResetRun x s'
  else s'

/-- TAP_RESET: IDCODE is the current instruction (18 R435). -/
def tapResetRun (x : Straps) (s : State) : State := setIr 0x01 x s

/-- EXTEST_INSTRUCTION: an instruction is loaded. Log 37 (PRESUMED). -/
def extestRun (code : Byte) (x : Straps) (s : State) : State := setIr (tapCode code) x s

/-- What MGMT_ACC captures next. -/
def captured (st : Byte) (v : Reg) (s : State) : State := { s with svc := { s.svc with done := true, status := st, rdata := v } }

/-- The mailbox access that a boundary-scan access of address `a` makes, as the PCIe function's of 32 bits (12 R297; 18 R437). -/
def scanMbx (write : Bool) (a : Nat) (v : Reg) (s : State) : MbxAcc :=
  { m := 8, write := write, word := BitVec.ofNat 15 ((a - 0x1000000) / 8), be := if mbxHigh a then 0xf0 else 0x0f, checked := s.cclk,
    who := .scan, data := if write then [v.setWidth 64] else [] }

/-- The access of MGMT_ACC: as a MGMT_RD or MGMT_WR of one register by the PCIe function (18 R437, 16 R394). One that shares its CCLK with
accesses of the mailbox's other side comes with them, in MAILBOX_WINDOW_ACCESS. -/
def scanAccess (write : Bool) (a : Nat) (v : Reg) (s : State) : State :=
  if mbxAddr a then mailboxRun [scanMbx write a v s] s
  else if (regInfo s.part.grade a).isNone then captured stBadArg 0 s
  else if !write then let (r, _, s) := mgmtGet 8 a s; captured stOk r s
  else
    let (st, s) := regWrite .scan 8 a v s
    if a = 0x3000C && st == stOk then { s with svc := { s.svc with done := false }, saves := s.saves ++ [{ who := .scan }] }
    else captured st 0 s

/-- MGMT_ACC, at Update-DR while MGMT_ACC is the current instruction. No register is accessed before the image is developed (17 R411).
Log 37 (PRESUMED). -/
def mgmtAccRun (write : Bool) (a : Nat) (v : Reg) (s : State) : State :=
  if s.svc.ir ≠ 0x20 then s
  else if s.dev.st ≠ .run then captured stTimeout 0 s
  else scanAccess write a v s

/-! ### VID pins (18 R427, R441) -/

/-- One step of the code from `v` towards `w`. -/
def vidStep (v w : BitVec 5) : BitVec 5 := if v < w then v + 1 else if w < v then v - 1 else v

/-- AVS_STEP: one step towards the code that the delay monitors want, at most 28, or towards `vid_fused` with `avs_en` = 0, 10 us after
the last at the earliest (18 R427, R441). -/
def avsStepRun (wanted : BitVec 5) (s : State) : State :=
  match s.pins.vid with
  | none => s
  | some v =>
    if !running s then s
    else
      let s := advanceTo s.dev.vidAt s
      let w := if regB s 0x20150 31 then (if wanted > 28 then 28 else wanted) else s.part.vid
      { s with pins := { s.pins with vid := some (vidStep v w) }, dev := { s.dev with vidAt := s.cclk + 10 * cclkPerUs s.part.grade } }

/-- VDDIO_RISE: 100 us after VDDIO, which was off, is in tolerance `vid_fused` is driven (18 R427). -/
def vddioRiseRun (s : State) : State := { s with pins := { s.pins with vid := s.pins.vid.or (some s.part.vid) } }

end Sys2Proof.Machine
end

