-- ==== Sys2Proof/Machine/Settle.lean ====
section
/-! DEFINITION. What follows every command within its CCLK: the units take what waits for them, and states that follow from others are
brought up to date. -/

namespace Sys2Proof.Machine

/-- What follows from a state within its CCLK, once no unit takes a further command: power states, credit hold-off, ended proposals, image
saves, channels that may serve. -/
def afterwards (s : State) : State := settleReady (pumpSave (settleProps (settleHold (settlePower s))))

/-- The units in order: commands held back for device DARKROOM, ECHO commands that waited for slots, the units with a queue of their own,
update units, firmware and the update units again, result cells that wait on the ring, the frames of the cascade ports, queues that have
changed. -/
def settleUnits (s : State) : State := settleQs (pumpFrames (pumpRing (pumpAll (fwDrain 65 (pumpAll (serveUnits (echoTake (runLate s))))))))

/-- The parts of `settle`, in order: events whose CCLK has come, the units, and what follows. While a further packet passes its check in the
same CCLK the units do not choose yet (01 R444). Log 28 (DESIGN CHOICE). -/
def settleRun (s : State) : State :=
  let s := offerSoon s
  if moreNow s then s else afterwards (settleUnits s)

/-- The units go on in this CCLK, while the core domain runs. -/
def settle (s : State) : State := if running s then settleRun s else s

/-- A command or an event has acted. Log 5 (DESIGN CHOICE). -/
def done (s : State) : Host.Outcome State Fault Refusal := .next (settle s)

/-- An event of the core domain: it does not happen while that domain is stopped or in reset (01 R25, 17 R402). Log 5 (DESIGN CHOICE). -/
def core (f : State → State) (s : State) : Host.Outcome State Fault Refusal := done (if running s then f s else s)

/-- A block with no command waiting lets one CCLK pass, in which the lanes of the stream engine make the accesses that are due (09 R208);
while the core domain does not run, the clock stands (01 Table 1.7). Log 4 (DESIGN CHOICE). -/
def idle (s : State) : State :=
  if running s then settle (advance 1 s) else s

end Sys2Proof.Machine
end

