-- ==== Sys2Proof/Machine/CoreRows.lean ====
section
/-! DEFINITION. The meanings of the events inside the core domain: searches, updates, ring, time base, stream engine, queues, power and integrity. -/

namespace Sys2Proof.Machine

/-- MAILBOX_WINDOW_ACCESS: `x` and the accesses that share its CCLKs (12 R298). -/
def execMailboxWindowAccess (x : MbxAcc) (more : List MbxAcc) (s : State) : Host.Outcome State Fault Refusal :=
  core (mailboxRun (x :: more)) s

/-- SEARCH_ADMISSION (01 R20). -/
def execSearchAdmission (ch : Chn) (s : State) : Host.Outcome State Fault Refusal := core (searchAdmissionRun ch) s

/-- HOLD_LIMIT_EXPIRY (11 R266). -/
def execHoldLimitExpiry (ch : Chn) (s : State) : Host.Outcome State Fault Refusal := core (holdLimitRun ch) s

/-- KEY_BUILD (04 R89). -/
def execKeyBuild (ch : Chn) (s : State) : Host.Outcome State Fault Refusal := core (keyBuildRun ch) s

/-- EXPOSURE_DEBIT (11 R263). -/
def execExposureDebit (s : State) : Host.Outcome State Fault Refusal := core exposureDebitRun s

/-- SEARCH_RESULT_DELIVERY (02 R47). -/
def execSearchResultDelivery (ch : Chn) (s : State) : Host.Outcome State Fault Refusal := core (resultDeliveryRun ch) s

/-- STREAM_ENGINE_VERDICT (09 R208). -/
def execStreamEngineVerdict (ch : Chn) (s : State) : Host.Outcome State Fault Refusal := core (streamVerdictRun ch) s

/-- WRITE_STEP (06 R146). -/
def execWriteStep (ch : Chn) (s : State) : Host.Outcome State Fault Refusal := core (writeStepRun ch) s

/-- WRITE_BUBBLE (06 R147). -/
def execWriteBubble (ch : Chn) (s : State) : Host.Outcome State Fault Refusal := core (writeBubbleRun ch) s

/-- PHASE_COMMIT (06 R156). -/
def execPhaseCommit (ch : Chn) (s : State) : Host.Outcome State Fault Refusal := core (phaseCommitRun ch) s

/-- FIX_TIME_END (06 R158). -/
def execFixTimeEnd (ch : Chn) (p : Fin 64) (s : State) : Host.Outcome State Fault Refusal := core (fixTimeEndRun ch p) s

/-- WASH_STEP (06 R159). -/
def execWashStep (ch : Chn) (s : State) : Host.Outcome State Fault Refusal := core (washStepRun ch) s

/-- SHEET_REBUILD (02 R52). -/
def execSheetRebuild (ch : Chn) (s : State) : Host.Outcome State Fault Refusal := core (sheetRebuildRun ch) s

/-- CH_LOCK_COPY_END (03 R86). -/
def execChLockCopyEnd (ch : Chn) (s : State) : Host.Outcome State Fault Refusal := core (lockCopyRun ch) s

/-- KEY_CELL_RECEIVE (07 R174). -/
def execKeyCellReceive (east : Bool) (cell : KeyCell) (s : State) : Host.Outcome State Fault Refusal := core (keyCellRun east cell) s

/-- RESULT_CELL_MERGE (07 R176). -/
def execResultCellMerge (east : Bool) (cell : ResultCell) (s : State) : Host.Outcome State Fault Refusal := core (resultCellRun east cell) s

/-- CASCADE_ORIGIN_MERGE (07 R175). -/
def execCascadeOriginMerge (slot : BitVec 9) (s : State) : Host.Outcome State Fault Refusal := core (originMergeRun slot) s

/-- LATE_RESULT_CELL (07 R182). -/
def execLateResultCell (cell : ResultCell) (s : State) : Host.Outcome State Fault Refusal := core (lateCellRun cell) s

/-- FORMATION_CELL (07 R170). -/
def execFormationCell (cell : List MemberId) (s : State) : Host.Outcome State Fault Refusal := core (formationRun cell) s

/-- FORMING_TIMEOUT (07 R170). -/
def execFormingTimeout (reach : BitVec 8) (s : State) : Host.Outcome State Fault Refusal := core (formingTimeoutRun reach) s

/-- NEIGHBOUR_LOST (07 R181). -/
def execNeighbourLost (east : Bool) (s : State) : Host.Outcome State Fault Refusal := core (neighbourLostRun east) s

/-- RING_CHANGE_CELL (07 R181). -/
def execRingChangeCell (live : BitVec 8) (s : State) : Host.Outcome State Fault Refusal := core (ringChangeRun live) s

/-- FENCE_CELL (07 R184). -/
def execFenceCell (fence : FenceHead) (s : State) : Host.Outcome State Fault Refusal :=
  core (fenceIn fence.east fence.dev fence.ring fence.live) s

/-- GEOMETRY_CELL (14 R357). -/
def execGeometryCell (dev : Fin 8) (profile : BitVec 7) (geo : Geometry) (s : State) : Host.Outcome State Fault Refusal :=
  core (geometryRun dev profile geo) s

/-- CASCADE_FRAME_RECEIVE (14 R356). -/
def execCascadeFrameReceive (east : Bool) (f : Frame) (s : State) : Host.Outcome State Fault Refusal := core (frameRun east f) s

/-- SLEW_END (08 R191). -/
def execSlewEnd (s : State) : Host.Outcome State Fault Refusal := core slewEndRun s

/-- PPS_IN_EDGE (08 R194). -/
def execPpsInEdge (s : State) : Host.Outcome State Fault Refusal := core ppsInEdgeRun s

/-- PPS_LOSS (08 R195). -/
def execPpsLoss (s : State) : Host.Outcome State Fault Refusal := core ppsLossRun s

/-- PPS_OUT_BOUNDARY (08 R197). -/
def execPpsOutBoundary (s : State) : Host.Outcome State Fault Refusal := core ppsOutBoundaryRun s

/-- PPS_OUT_PULSE_END (08 R197). -/
def execPpsOutPulseEnd (s : State) : Host.Outcome State Fault Refusal := core ppsOutPulseEndRun s

/-- WATCHDOG_SWEEP_VISIT (09 R229). -/
def execWatchdogSweepVisit (s : State) : Host.Outcome State Fault Refusal := core sweepRun s

/-- BACKGROUND_VISIT (09 R230). -/
def execBackgroundVisit (s : State) : Host.Outcome State Fault Refusal := core backgroundRun s

/-- EVENT_COMMIT (10 R245). -/
def execEventCommit (s : State) : Host.Outcome State Fault Refusal := core eventCommitRun s

/-- EVENT_SPILL (10 R245). -/
def execEventSpill (s : State) : Host.Outcome State Fault Refusal := core eventSpillRun s

/-- SPILLWAY_WRITE (10 R257). -/
def execSpillwayWrite (s : State) : Host.Outcome State Fault Refusal := core spillwayWriteRun s

/-- Q_PUSH_HELD_COMPLETE (10 R251). -/
def execQPushHeldComplete (q : BitVec 18) (s : State) : Host.Outcome State Fault Refusal := core (qPushHeldCompleteRun q) s

/-- Q_PUSH_TIMEOUT (10 R251). -/
def execQPushTimeout (q : BitVec 18) (s : State) : Host.Outcome State Fault Refusal := core (qPushTimeoutRun q) s

/-- WORK_ITEM_RELEASE (10 R252). -/
def execWorkItemRelease (s : State) : Host.Outcome State Fault Refusal := core workReleaseRun s

/-- WORK_DONE (10 R253). -/
def execWorkDone (q : BitVec 18) (s : State) : Host.Outcome State Fault Refusal := core (workDoneRun q) s

/-- OTHER_MW_RECOMPUTE (11 R264). -/
def execOtherMwRecompute (s : State) : Host.Outcome State Fault Refusal := core otherMwRun s

/-- G_FLOOR_WINDOW (11 R271). -/
def execGFloorWindow (s : State) : Host.Outcome State Fault Refusal := core gFloorWindowRun s

/-- IDLE_TIMER_EXPIRY (11 R273). -/
def execIdleTimerExpiry (ch : Chn) (s : State) : Host.Outcome State Fault Refusal := core (idleExpiryRun ch) s

/-- STATE_ENTRY_COMPLETE (11 R273). -/
def execStateEntryComplete (ch : Chn) (s : State) : Host.Outcome State Fault Refusal := core (entryCompleteRun ch) s

/-- CHANNEL_WAKE_COMPLETE (11 R274). -/
def execChannelWakeComplete (ch : Chn) (s : State) : Host.Outcome State Fault Refusal := core (wakeCompleteRun ch) s

/-- PRE_EXPOSURE_WINDOW_OPEN (11 R278). -/
def execPreExposureWindowOpen (ch : Chn) (w : Fin 4) (s : State) : Host.Outcome State Fault Refusal := core (windowOpenRun ch w) s

/-- PRE_EXPOSURE_WINDOW_CLOSE (11 R278). -/
def execPreExposureWindowClose (ch : Chn) (w : Fin 4) (s : State) : Host.Outcome State Fault Refusal := core (windowCloseRun ch w) s

/-- DARKROOM_ENTRY (11 R279). -/
def execDarkroomEntry (s : State) : Host.Outcome State Fault Refusal := core darkroomEntryRun s

/-- BANK_GROUP_WAKE_COMPLETE (11 R281). -/
def execBankGroupWakeComplete (g : Fin 7) (s : State) : Host.Outcome State Fault Refusal := core (bankGroupRun g) s

/-- SCRUB_READ (13 R321). -/
def execScrubRead (ch : Chn) (s : State) : Host.Outcome State Fault Refusal := core (scrubReadRun ch) s

/-- SCRUB_CORRECTIVE_WRITE (13 R322). -/
def execScrubCorrectiveWrite (ch : Chn) (s : State) : Host.Outcome State Fault Refusal := core (corrWriteRun ch) s

/-- HEAL_WRITE (13 R318). -/
def execHealWrite (s : State) : Host.Outcome State Fault Refusal := core healWriteRun s

/-- PROOF_ROW_OP (13 R331). -/
def execProofRowOp (target : Fin 5) (ok : Bool) (s : State) : Host.Outcome State Fault Refusal := core (proofOpRun target ok) s

/-- PROOF_REDIRECT (13 R330). -/
def execProofRedirect (ch : Chn) (s : State) : Host.Outcome State Fault Refusal := core (proofRedirectRun ch) s

/-- PROOF_RETURN (13 R330). -/
def execProofReturn (ch : Chn) (s : State) : Host.Outcome State Fault Refusal := core (proofReturnRun ch) s

/-- PROOF_PASS_END (13 R332). -/
def execProofPassEnd (target : Fin 5) (trim : BitVec 6) (s : State) : Host.Outcome State Fault Refusal := core (proofEndRun target trim) s

/-- AUTO_PROOF_START (13 R335). -/
def execAutoProofStart (ch : Chn) (s : State) : Host.Outcome State Fault Refusal := core (autoProofRun ch) s

/-- LENT_PAGE_ACCESS (13 R336). -/
def execLentPageAccess (s : State) : Host.Outcome State Fault Refusal := core lentPageRun s

/-- BLOCK_REPAIR_COMPLETE (13 R338). -/
def execBlockRepairComplete (ch : Chn) (s : State) : Host.Outcome State Fault Refusal := core (blockRepairRun ch) s

/-- ROW_REMAP (13 R338). -/
def execRowRemap (s : State) : Host.Outcome State Fault Refusal := core rowRemapRun s

/-- FREE_LIST_REBUILD (12 R308). -/
def execFreeListRebuild (s : State) : Host.Outcome State Fault Refusal := core freeListRebuildRun s

/-- SNIPPET_HANDOVER (04 R89). -/
def execSnippetHandover (ch : Chn) (s : State) : Host.Outcome State Fault Refusal := core (snippetHandoverRun ch) s

/-- EXPOSURE_REFILL (11 R263). -/
def execExposureRefill (s : State) : Host.Outcome State Fault Refusal := core exposureRefillRun s

/-- SET_PENDING_TIMEOUT (08 R196). -/
def execSetPendingTimeout (s : State) : Host.Outcome State Fault Refusal := core setPendTimeoutRun s

/-- RANGE_DESCRIPTOR_WRITE (10 R238). -/
def execRangeDescriptorWrite (s : State) : Host.Outcome State Fault Refusal := core rangeDescriptorRun s

end Sys2Proof.Machine
end

