-- ==== Sys2Proof/Machine/PacketRows.lean ====
section
/-! DEFINITION. The meanings of the command packets: the last flit of the packet passes its check (15 R369-R379). -/

namespace Sys2Proof.Machine

/-- NOP (15 R379). -/
def execNop (c : Pkt) (s : State) : Host.Outcome State Fault Refusal := done (packet 0x00 c s)

/-- ECHO (15 R379). -/
def execEcho (c : Pkt) (s : State) : Host.Outcome State Fault Refusal := done (packet 0x01 c s)

/-- INFO (15 R380). -/
def execInfo (c : Pkt) (s : State) : Host.Outcome State Fault Refusal := done (packet 0x02 c s)

/-- UNLISTED_OPCODE (15 R370). -/
def execUnlistedOpcode (opcode : BitVec 8) (c : Pkt) (s : State) : Host.Outcome State Fault Refusal := done (packet opcode c s)

/-- SRCH (15 R378). -/
def execSrch (c : Pkt) (s : State) : Host.Outcome State Fault Refusal := done (packet 0x10 c s)

/-- HSRCH (04 R93). -/
def execHsrch (c : Pkt) (s : State) : Host.Outcome State Fault Refusal := done (packet 0x11 c s)

/-- SRCH2 (06 R160). -/
def execSrch2 (c : Pkt) (s : State) : Host.Outcome State Fault Refusal := done (packet 0x12 c s)

/-- ENT_WR (06 R141). -/
def execEntWr (c : Pkt) (s : State) : Host.Outcome State Fault Refusal := done (packet 0x20 c s)

/-- ENT_RD (06 R141). -/
def execEntRd (c : Pkt) (s : State) : Host.Outcome State Fault Refusal := done (packet 0x21 c s)

/-- ENT_INS (06 R144). -/
def execEntIns (c : Pkt) (s : State) : Host.Outcome State Fault Refusal := done (packet 0x22 c s)

/-- ENT_DEL (06 R141). -/
def execEntDel (c : Pkt) (s : State) : Host.Outcome State Fault Refusal := done (packet 0x23 c s)

/-- PRIO_WR (06 R141). -/
def execPrioWr (c : Pkt) (s : State) : Host.Outcome State Fault Refusal := done (packet 0x24 c s)

/-- AD_WR (06 R143). -/
def execAdWr (c : Pkt) (s : State) : Host.Outcome State Fault Refusal := done (packet 0x25 c s)

/-- AD_RD (06 R141). -/
def execAdRd (c : Pkt) (s : State) : Host.Outcome State Fault Refusal := done (packet 0x26 c s)

/-- NEG_OPEN (06 R155). -/
def execNegOpen (c : Pkt) (s : State) : Host.Outcome State Fault Refusal := done (packet 0x28 c s)

/-- NEG_COMMIT (06 R155). -/
def execNegCommit (c : Pkt) (s : State) : Host.Outcome State Fault Refusal := done (packet 0x29 c s)

/-- NEG_COMMIT_AT_PHASE (06 R156). -/
def execNegCommitAtPhase (c : Pkt) (s : State) : Host.Outcome State Fault Refusal := done (packet 0x29 c s)

/-- NEG_ABORT (06 R159). -/
def execNegAbort (c : Pkt) (s : State) : Host.Outcome State Fault Refusal := done (packet 0x2A c s)

/-- PART_CFG (03 R62). -/
def execPartCfg (c : Pkt) (s : State) : Host.Outcome State Fault Refusal := done (packet 0x2B c s)

/-- STM_WR (09 R214). -/
def execStmWr (c : Pkt) (s : State) : Host.Outcome State Fault Refusal := done (packet 0x30 c s)

/-- STM_RD (09 R214). -/
def execStmRd (c : Pkt) (s : State) : Host.Outcome State Fault Refusal := done (packet 0x31 c s)

/-- STM_CLR (09 R214). -/
def execStmClr (c : Pkt) (s : State) : Host.Outcome State Fault Refusal := done (packet 0x32 c s)

/-- Q_CFG (10 R238). -/
def execQCfg (c : Pkt) (s : State) : Host.Outcome State Fault Refusal := done (packet 0x38 c s)

/-- Q_CFG_READ (10 R236). -/
def execQCfgRead (c : Pkt) (s : State) : Host.Outcome State Fault Refusal := done (packet 0x38 c s)

/-- Q_PUSH (10 R251). -/
def execQPush (c : Pkt) (s : State) : Host.Outcome State Fault Refusal := done (packet 0x39 c s)

/-- Q_POP (10 R246). -/
def execQPop (c : Pkt) (s : State) : Host.Outcome State Fault Refusal := done (packet 0x3A c s)

/-- Q_SKIP (10 R249). -/
def execQSkip (c : Pkt) (s : State) : Host.Outcome State Fault Refusal := done (packet 0x3B c s)

/-- Q_FLUSH (10 R250). -/
def execQFlush (c : Pkt) (s : State) : Host.Outcome State Fault Refusal := done (packet 0x3C c s)

/-- SPILL_POP (10 R259). -/
def execSpillPop (c : Pkt) (s : State) : Host.Outcome State Fault Refusal := done (packet 0x3D c s)

/-- BUF_GET (12 R302). -/
def execBufGet (c : Pkt) (s : State) : Host.Outcome State Fault Refusal := done (packet 0x40 c s)

/-- BUF_SHARE (12 R304). -/
def execBufShare (c : Pkt) (s : State) : Host.Outcome State Fault Refusal := done (packet 0x41 c s)

/-- BUF_RELEASE (12 R305). -/
def execBufRelease (c : Pkt) (s : State) : Host.Outcome State Fault Refusal := done (packet 0x42 c s)

/-- BUF_WR (12 R303). -/
def execBufWr (c : Pkt) (s : State) : Host.Outcome State Fault Refusal := done (packet 0x43 c s)

/-- BUF_RD (12 R303). -/
def execBufRd (c : Pkt) (s : State) : Host.Outcome State Fault Refusal := done (packet 0x44 c s)

/-- MGMT_RD (15 R381). -/
def execMgmtRd (c : Pkt) (s : State) : Host.Outcome State Fault Refusal := done (packet 0x48 c s)

/-- MGMT_WR (15 R382). -/
def execMgmtWr (c : Pkt) (s : State) : Host.Outcome State Fault Refusal := done (packet 0x49 c s)

/-- MEM_RD (12 R287). -/
def execMemRd (c : Pkt) (s : State) : Host.Outcome State Fault Refusal := done (packet 0x4A c s)

/-- MEM_WR (12 R288). -/
def execMemWr (c : Pkt) (s : State) : Host.Outcome State Fault Refusal := done (packet 0x4B c s)

/-- MEM_RAW_RD (13 R324). -/
def execMemRawRd (c : Pkt) (s : State) : Host.Outcome State Fault Refusal := done (packet 0x4C c s)

/-- MEM_RAW_WR (13 R325). -/
def execMemRawWr (c : Pkt) (s : State) : Host.Outcome State Fault Refusal := done (packet 0x4D c s)

/-- XPO_SET (11 R284). -/
def execXpoSet (c : Pkt) (s : State) : Host.Outcome State Fault Refusal := done (packet 0x50 c s)

/-- CH_STATE (11 R277). -/
def execChState (c : Pkt) (s : State) : Host.Outcome State Fault Refusal := done (packet 0x51 c s)

/-- CH_STATE_DEVICE_DARKROOM (11 R279). -/
def execChStateDeviceDarkroom (c : Pkt) (s : State) : Host.Outcome State Fault Refusal := done (packet 0x51 c s)

/-- TIME_SET (08 R190). -/
def execTimeSet (c : Pkt) (s : State) : Host.Outcome State Fault Refusal := done (packet 0x52 c s)

/-- TIME_SET_AT_PPS (08 R196). -/
def execTimeSetAtPps (c : Pkt) (s : State) : Host.Outcome State Fault Refusal := done (packet 0x52 c s)

/-- TIME_ADJ_RATE (08 R191). -/
def execTimeAdjRate (c : Pkt) (s : State) : Host.Outcome State Fault Refusal := done (packet 0x53 c s)

/-- TIME_ADJ_STEP (08 R191). -/
def execTimeAdjStep (c : Pkt) (s : State) : Host.Outcome State Fault Refusal := done (packet 0x53 c s)

/-- TIME_ADJ_SLEW (08 R191). -/
def execTimeAdjSlew (c : Pkt) (s : State) : Host.Outcome State Fault Refusal := done (packet 0x53 c s)

/-- CYG_CFG (08 R201). -/
def execCygCfg (c : Pkt) (s : State) : Host.Outcome State Fault Refusal := done (packet 0x54 c s)

/-- CYG_CFG_OFF (08 R201). -/
def execCygCfgOff (c : Pkt) (s : State) : Host.Outcome State Fault Refusal := done (packet 0x54 c s)

/-- CH_QUIESCE (17 R416). -/
def execChQuiesce (c : Pkt) (s : State) : Host.Outcome State Fault Refusal := done (packet 0x58 c s)

/-- CH_RESUME (17 R417). -/
def execChResume (c : Pkt) (s : State) : Host.Outcome State Fault Refusal := done (packet 0x59 c s)

/-- CH_LOCK (03 R83). -/
def execChLock (c : Pkt) (s : State) : Host.Outcome State Fault Refusal := done (packet 0x5A c s)

/-- PROOF_START (13 R328). -/
def execProofStart (c : Pkt) (s : State) : Host.Outcome State Fault Refusal := done (packet 0x5B c s)

/-- CAL_START (13 R334). -/
def execCalStart (c : Pkt) (s : State) : Host.Outcome State Fault Refusal := done (packet 0x5C c s)

/-- REPAIR_BLOCK (13 R337). -/
def execRepairBlock (c : Pkt) (s : State) : Host.Outcome State Fault Refusal := done (packet 0x5D c s)

/-- REPAIR_ROW_REMAP (13 R337). -/
def execRepairRowRemap (c : Pkt) (s : State) : Host.Outcome State Fault Refusal := done (packet 0x5D c s)

/-- FW_STAGE (15 R384). -/
def execFwStage (c : Pkt) (s : State) : Host.Outcome State Fault Refusal := done (packet 0x5E c s)

/-- FW_SWITCH (15 R385). -/
def execFwSwitch (c : Pkt) (s : State) : Host.Outcome State Fault Refusal := done (packet 0x5F c s)

/-- IMAGE_SAVE (15 R386). -/
def execImageSave (c : Pkt) (s : State) : Host.Outcome State Fault Refusal := done (packet 0x60 c s)

/-- DEV_RESET (15 R387). -/
def execDevReset (c : Pkt) (s : State) : Host.Outcome State Fault Refusal := done (packet 0x61 c s)

/-- DEV_RESET_CHANNEL (17 R405). -/
def execDevResetChannel (c : Pkt) (s : State) : Host.Outcome State Fault Refusal := done (packet 0x61 c s)

/-- PROT_PROPOSE (15 R388). -/
def execProtPropose (c : Pkt) (s : State) : Host.Outcome State Fault Refusal := done (packet 0x68 c s)

/-- PROT_COUNTERSIGN (15 R389). -/
def execProtCountersign (c : Pkt) (s : State) : Host.Outcome State Fault Refusal := done (packet 0x69 c s)

/-- PROT_WITHDRAW (15 R390). -/
def execProtWithdraw (c : Pkt) (s : State) : Host.Outcome State Fault Refusal := done (packet 0x6A c s)

/-- PROT_STATUS (15 R390). -/
def execProtStatus (c : Pkt) (s : State) : Host.Outcome State Fault Refusal := done (packet 0x6B c s)

/-- BREACH_CFG (14 R364). -/
def execBreachCfg (c : Pkt) (s : State) : Host.Outcome State Fault Refusal := done (packet 0x70 c s)

end Sys2Proof.Machine
end

