-- ==== Sys2Proof/Machine/PortRows.lean ====
section
/-! DEFINITION. The meanings of the events at the pins, the host links, the PCIe function, resets, firmware, SMBus and test access port. -/

namespace Sys2Proof.Machine

/-- REPLY_EGRESS (05 R131). -/
def execReplyEgress (ap : Ap) (s : State) : Host.Outcome State Fault Refusal := core (replyEgressRun ap) s

/-- THERMAL_SAMPLE (11 R269). -/
def execThermalSample (t : Temps) (s : State) : Host.Outcome State Fault Refusal := done (thermalSampleRun t s)

/-- THERMAL_SHUTDOWN (11 R272). -/
def execThermalShutdown (t : Temps) (s : State) : Host.Outcome State Fault Refusal := done (thermalShutdownRun t s)

/-- DARKROOM_WAKE (11 R280). -/
def execDarkroomWake (src : WakeSrc) (s : State) : Host.Outcome State Fault Refusal := done (darkroomWakeRun src s)

/-- DARKROOM_EXIT_COMPLETE (11 R280). -/
def execDarkroomExitComplete (s : State) : Host.Outcome State Fault Refusal := done (darkroomExitRun s)

/-- DATA_FLIT_RECEIVE (14 R346). -/
def execDataFlitReceive (pg : Fin 8) (f : Flit) (fecOk : Bool) (s : State) : Host.Outcome State Fault Refusal :=
  core (dataFlitRun pg f fecOk) s

/-- CTRL_FLIT_RECEIVE (14 R344). -/
def execCtrlFlitReceive (pg : Fin 8) (f : Flit) (s : State) : Host.Outcome State Fault Refusal := core (ctrlFlitRun pg f) s

/-- REPLAY_TIMEOUT (14 R349). -/
def execReplayTimeout (pg : Fin 8) (s : State) : Host.Outcome State Fault Refusal := core (replayTimeoutRun pg) s

/-- HOST_LOSS (14 R351). -/
def execHostLoss (pg : Fin 8) (s : State) : Host.Outcome State Fault Refusal := core (hostLossRun pg) s

/-- TRAINING_COMPLETE (14 R353). -/
def execTrainingComplete (port : Fin 10) (pol : Byte) (laneRev : Bool) (s : State) : Host.Outcome State Fault Refusal :=
  core (trainedRun port pol laneRev) s

/-- DRAIN_END (14 R353). -/
def execDrainEnd (pg : Fin 8) (s : State) : Host.Outcome State Fault Refusal := core (drainEndRun pg) s

/-- LPI_HEARTBEAT (14 R352). -/
def execLpiHeartbeat (pg : Fin 8) (s : State) : Host.Outcome State Fault Refusal := done (lpiRun pg s)

/-- REALIGN_TIMEOUT (14 R352). -/
def execRealignTimeout (pg : Fin 8) (s : State) : Host.Outcome State Fault Refusal := done (realignTimeoutRun pg s)

/-- COMMAND_FETCH (14 R360). -/
def execCommandFetch (words : List Word) (s : State) : Host.Outcome State Fault Refusal := core (commandFetchRun words) s

/-- FETCH_ERROR (14 R363). -/
def execFetchError (s : State) : Host.Outcome State Fault Refusal := core fetchErrorRun s

/-- MSIX_MESSAGE (14 R362). -/
def execMsixMessage (s : State) : Host.Outcome State Fault Refusal := core msixMessageRun s

/-- COAL_TIMEOUT (14 R362). -/
def execCoalTimeout (s : State) : Host.Outcome State Fault Refusal := core coalTimeoutRun s

/-- FUNCTION_LEVEL_RESET (14 R363). -/
def execFunctionLevelReset (s : State) : Host.Outcome State Fault Refusal := core flrRun s

/-- PCIE_LINK_DOWN (14 R363). -/
def execPcieLinkDown (s : State) : Host.Outcome State Fault Refusal := core linkDownRun s

/-- MBXBSY_PULSE_END (12 R299). -/
def execMbxbsyPulseEnd (sideB : Bool) (s : State) : Host.Outcome State Fault Refusal := core (mbxbsyEndRun sideB) s

/-- AVS_STEP (18 R427). -/
def execAvsStep (wanted : BitVec 5) (s : State) : Host.Outcome State Fault Refusal := core (avsStepRun wanted) s

/-- POWER_ON_RESET (17 R402). -/
def execPowerOnReset (straps : Straps) (s : State) : Host.Outcome State Fault Refusal := done (powerOnRun straps s)

/-- COLD_START (17 R402). -/
def execColdStart (straps : Straps) (s : State) : Host.Outcome State Fault Refusal := done (coldStartRun straps s)

/-- WARM_RESET (17 R402). -/
def execWarmReset (straps : Straps) (s : State) : Host.Outcome State Fault Refusal := done (warmResetRun straps s)

/-- RESET_ASSERT (17 R402). -/
def execResetAssert (s : State) : Host.Outcome State Fault Refusal := done (resetAssertRun s)

/-- CHANNEL_RESET_COMPLETE (17 R405). -/
def execChannelResetComplete (ch : Chn) (s : State) : Host.Outcome State Fault Refusal := core (chResetRun ch) s

/-- QUIESCE_DRAIN_COMPLETE (05 R134). -/
def execQuiesceDrainComplete (ch : Chn) (s : State) : Host.Outcome State Fault Refusal := core (drainRun ch) s

/-- FIRMWARE_START (17 R414). -/
def execFirmwareStart (s : State) : Host.Outcome State Fault Refusal := core fwStartRun s

/-- FIRMWARE_START_TIMEOUT (17 R414). -/
def execFirmwareStartTimeout (s : State) : Host.Outcome State Fault Refusal := core fwStartTimeoutRun s

/-- FW_SWITCH_APPLY (17 R415). -/
def execFwSwitchApply (s : State) : Host.Outcome State Fault Refusal := core fwSwitchRun s

/-- FW_SWITCH_TIMEOUT (17 R415). -/
def execFwSwitchTimeout (s : State) : Host.Outcome State Fault Refusal := core fwSwitchTimeoutRun s

/-- LATENT_IMAGE_SAVE (17 R409). -/
def execLatentImageSave (readBackOk : Bool) (s : State) : Host.Outcome State Fault Refusal := core (imageSaveRun readBackOk) s

/-- PROPOSAL_WINDOW_END (16 R397). -/
def execProposalWindowEnd (s : State) : Host.Outcome State Fault Refusal := core windowEndRun s

/-- MGMT_ACC (18 R437). -/
def execMgmtAcc (write : Bool) (addr val : Reg) (s : State) : Host.Outcome State Fault Refusal := done (mgmtAccRun write addr.toNat val s)

/-- TAP_RESET (18 R435). -/
def execTapReset (straps : Straps) (s : State) : Host.Outcome State Fault Refusal := done (tapResetRun straps s)

/-- EXTEST_INSTRUCTION (18 R436). -/
def execExtestInstruction (code : Byte) (straps : Straps) (s : State) : Host.Outcome State Fault Refusal := done (extestRun code straps s)

/-- TEMP (18 R434). -/
def execTemp (s : State) : Host.Outcome State Fault Refusal := done (tempRun s)

/-- STATE (18 R434). -/
def execState (s : State) : Host.Outcome State Fault Refusal := done (stateRun s)

/-- IDENT (18 R434). -/
def execIdent (s : State) : Host.Outcome State Fault Refusal := done (identRun s)

/-- WAKE (18 R434). -/
def execWake (s : State) : Host.Outcome State Fault Refusal := done (wakeRun s)

/-- TEMPS (18 R434). -/
def execTemps (s : State) : Host.Outcome State Fault Refusal := done (tempsRun s)

/-- ALERT_RESPONSE_READ (18 R434). -/
def execAlertResponseRead (s : State) : Host.Outcome State Fault Refusal := done (alertReadRun s)

/-- LFCLK_EDGE (08 R198). -/
def execLfclkEdge (s : State) : Host.Outcome State Fault Refusal := done (lfclkEdgeRun s)

/-- CTRL_FLIT_SEND (14 R344). -/
def execCtrlFlitSend (pg : Fin 8) (s : State) : Host.Outcome State Fault Refusal := core (ctrlSendRun pg) s

/-- GROUP_REALIGNED (14 R352). -/
def execGroupRealigned (pg : Fin 8) (s : State) : Host.Outcome State Fault Refusal := done (groupRealignedRun pg s)

/-- MSIX_UNMASK (14 R362). -/
def execMsixUnmask (entry : MsixEntry) (s : State) : Host.Outcome State Fault Refusal :=
  core (msixUnmaskRun entry.v entry.addr entry.data entry.masked) s

/-- FLASH_STAGE_COMPLETE (15 R384). -/
def execFlashStageComplete (image : Option (List Word)) (s : State) : Host.Outcome State Fault Refusal := core (flashStageRun image) s

/-- LATENT_IMAGE_DEVELOPED (17 R406). -/
def execLatentImageDeveloped (s : State) : Host.Outcome State Fault Refusal := core developedRun s

/-- FIRMWARE_LOADED (17 R414). -/
def execFirmwareLoaded (image : Option (List Word)) (s : State) : Host.Outcome State Fault Refusal := core (fwLoadedRun image) s

/-- PCIE_LINK_UP (14 R359). -/
def execPcieLinkUp (speed : BitVec 3) (width : BitVec 2) (s : State) : Host.Outcome State Fault Refusal := core (linkUpRun speed width) s

/-- VDDIO_RISE (18 R427). -/
def execVddioRise (s : State) : Host.Outcome State Fault Refusal := done (vddioRiseRun s)

end Sys2Proof.Machine
end

