-- ==== Sys2Proof/Machine/RegisterRows.lean ====
section
/-! DEFINITION. The meanings of the register accesses: one access through the PCIe memory window, or one read by the master named (00 R5-R10; 01 R28-R30). -/

namespace Sys2Proof.Machine

/-- REGISTER_WRITE (00 R5). -/
def execRegisterWrite (addr val : Reg) (s : State) : Host.Outcome State Fault Refusal := done (windowWrite addr.toNat val s)

/-- PROF_CTL_WRITE (03 R70). -/
def execProfCtlWrite (addr val : Reg) (s : State) : Host.Outcome State Fault Refusal := done (windowWrite addr.toNat val s)

/-- KB_PCLS_WRITE (04 R98). -/
def execKbPclsWrite (cls : Fin 16) (val : Reg) (s : State) : Host.Outcome State Fault Refusal :=
  done (windowWrite (0x51000 + 4 * cls.val) val s)

/-- KB_TPL_WRITE (04 R103). -/
def execKbTplWrite (addr val : Reg) (s : State) : Host.Outcome State Fault Refusal := done (windowWrite addr.toNat val s)

/-- REBUILD (02 R52). -/
def execRebuild (ch : Chn) (s : State) : Host.Outcome State Fault Refusal :=
  done (windowWrite (chAddr ch 0x2000) (putB (getReg s (chAddr ch 0x2000)) 1 true) s)

/-- STAMP_WRITE (06 R167). -/
def execStampWrite (ch : Chn) (val : Reg) (s : State) : Host.Outcome State Fault Refusal := done (windowWrite (chAddr ch 0x5104) val s)

/-- RING_EN_WRITE (07 R170). -/
def execRingEnWrite (val : Reg) (s : State) : Host.Outcome State Fault Refusal := done (windowWrite 0x4C000 val s)

/-- REJOIN (07 R184). -/
def execRejoin (s : State) : Host.Outcome State Fault Refusal := done (windowWrite 0x4C000 (putB (getReg s 0x4C000) 30 true) s)

/-- SE_WD_RANGE_WRITE (09 R229). -/
def execSeWdRangeWrite (last : Bool) (val : Reg) (s : State) : Host.Outcome State Fault Refusal :=
  done (windowWrite (if last then 0x6000C else 0x60008) val s)

/-- BG_DIV_WRITE (09 R230). -/
def execBgDivWrite (val : Reg) (s : State) : Host.Outcome State Fault Refusal := done (windowWrite 0x60000 val s)

/-- SE_GCL_HDR_WRITE (09 R220). -/
def execSeGclHdrWrite (n : Fin 1024) (val : Reg) (s : State) : Host.Outcome State Fault Refusal :=
  done (windowWrite (0x64000 + 4 * n.val) val s)

/-- PROT_PROVISION (16 R394). -/
def execProtProvision (val : Reg) (s : State) : Host.Outcome State Fault Refusal := done (windowWrite 0x3000C val s)

/-- PWR_BG_CTL_WRITE (11 R281). -/
def execPwrBgCtlWrite (val : Reg) (s : State) : Host.Outcome State Fault Refusal := done (windowWrite 0x20140 val s)

/-- RETRAIN (14 R354). -/
def execRetrain (pg : Fin 8) (val : Reg) (s : State) : Host.Outcome State Fault Refusal :=
  done (windowWrite (pgReg pg 0) (putB val 29 true) s)

/-- PG_ENABLE_WRITE (14 R353). -/
def execPgEnableWrite (pg : Fin 8) (val : Reg) (s : State) : Host.Outcome State Fault Refusal := done (windowWrite (pgReg pg 0) val s)

/-- PCIE_RING_CTL_WRITE (14 R363). -/
def execPcieRingCtlWrite (val : Reg) (s : State) : Host.Outcome State Fault Refusal := done (windowWrite 0x4A010 val s)

/-- DB_SQ_TAIL (14 R360). -/
def execDbSqTail (val : Reg) (s : State) : Host.Outcome State Fault Refusal := done (dbSqTailRun val s)

/-- DB_CQ_HEAD (14 R361). -/
def execDbCqHead (val : Reg) (s : State) : Host.Outcome State Fault Refusal := done (dbCqHeadRun val s)

/-- AVS_EN_WRITE (18 R441). -/
def execAvsEnWrite (val : Reg) (s : State) : Host.Outcome State Fault Refusal := done (windowWrite 0x20150 val s)

/-- TB_SNAP_NS_READ (08 R206). -/
def execTbSnapNsRead (m : Ap) (s : State) : Host.Outcome State Fault Refusal := done (windowRead m 0x10020 s)

/-- COUNTER_LOW_READ (01 R30). -/
def execCounterLowRead (m : Ap) (addr : Reg) (s : State) : Host.Outcome State Fault Refusal := done (windowRead m addr.toNat s)

/-- CLEAR_ON_READ (00 R10). -/
def execClearOnRead (m : Ap) (addr : Reg) (s : State) : Host.Outcome State Fault Refusal := done (windowRead m addr.toNat s)

/-- PCIE_UNMAPPED_ACCESS (01 R29). -/
def execPcieUnmappedAccess (write : Bool) (addr : Reg) (s : State) : Host.Outcome State Fault Refusal :=
  done (unmappedRun write addr.toNat s)

end Sys2Proof.Machine
end

