-- ==== Sys2Proof/Machine/Dispatch.lean ====
section
/-! DEFINITION. The dispatch: one arm for each constructor of `Instr`, one direct call of its meaning. -/

namespace Sys2Proof.Machine

def exec (i : Instr) (s : State) : Host.Outcome State Fault Refusal :=
  match i with
  | .nop c => Sys2Proof.Machine.execNop c s
  | .echo c => Sys2Proof.Machine.execEcho c s
  | .info c => Sys2Proof.Machine.execInfo c s
  | .unlistedOpcode opcode c => Sys2Proof.Machine.execUnlistedOpcode opcode c s
  | .srch c => Sys2Proof.Machine.execSrch c s
  | .hsrch c => Sys2Proof.Machine.execHsrch c s
  | .srch2 c => Sys2Proof.Machine.execSrch2 c s
  | .entWr c => Sys2Proof.Machine.execEntWr c s
  | .entRd c => Sys2Proof.Machine.execEntRd c s
  | .entIns c => Sys2Proof.Machine.execEntIns c s
  | .entDel c => Sys2Proof.Machine.execEntDel c s
  | .prioWr c => Sys2Proof.Machine.execPrioWr c s
  | .adWr c => Sys2Proof.Machine.execAdWr c s
  | .adRd c => Sys2Proof.Machine.execAdRd c s
  | .negOpen c => Sys2Proof.Machine.execNegOpen c s
  | .negCommit c => Sys2Proof.Machine.execNegCommit c s
  | .negCommitAtPhase c => Sys2Proof.Machine.execNegCommitAtPhase c s
  | .negAbort c => Sys2Proof.Machine.execNegAbort c s
  | .partCfg c => Sys2Proof.Machine.execPartCfg c s
  | .stmWr c => Sys2Proof.Machine.execStmWr c s
  | .stmRd c => Sys2Proof.Machine.execStmRd c s
  | .stmClr c => Sys2Proof.Machine.execStmClr c s
  | .qCfg c => Sys2Proof.Machine.execQCfg c s
  | .qCfgRead c => Sys2Proof.Machine.execQCfgRead c s
  | .qPush c => Sys2Proof.Machine.execQPush c s
  | .qPop c => Sys2Proof.Machine.execQPop c s
  | .qSkip c => Sys2Proof.Machine.execQSkip c s
  | .qFlush c => Sys2Proof.Machine.execQFlush c s
  | .spillPop c => Sys2Proof.Machine.execSpillPop c s
  | .bufGet c => Sys2Proof.Machine.execBufGet c s
  | .bufShare c => Sys2Proof.Machine.execBufShare c s
  | .bufRelease c => Sys2Proof.Machine.execBufRelease c s
  | .bufWr c => Sys2Proof.Machine.execBufWr c s
  | .bufRd c => Sys2Proof.Machine.execBufRd c s
  | .mgmtRd c => Sys2Proof.Machine.execMgmtRd c s
  | .mgmtWr c => Sys2Proof.Machine.execMgmtWr c s
  | .memRd c => Sys2Proof.Machine.execMemRd c s
  | .memWr c => Sys2Proof.Machine.execMemWr c s
  | .memRawRd c => Sys2Proof.Machine.execMemRawRd c s
  | .memRawWr c => Sys2Proof.Machine.execMemRawWr c s
  | .xpoSet c => Sys2Proof.Machine.execXpoSet c s
  | .chState c => Sys2Proof.Machine.execChState c s
  | .chStateDeviceDarkroom c => Sys2Proof.Machine.execChStateDeviceDarkroom c s
  | .timeSet c => Sys2Proof.Machine.execTimeSet c s
  | .timeSetAtPps c => Sys2Proof.Machine.execTimeSetAtPps c s
  | .timeAdjRate c => Sys2Proof.Machine.execTimeAdjRate c s
  | .timeAdjStep c => Sys2Proof.Machine.execTimeAdjStep c s
  | .timeAdjSlew c => Sys2Proof.Machine.execTimeAdjSlew c s
  | .cygCfg c => Sys2Proof.Machine.execCygCfg c s
  | .cygCfgOff c => Sys2Proof.Machine.execCygCfgOff c s
  | .chQuiesce c => Sys2Proof.Machine.execChQuiesce c s
  | .chResume c => Sys2Proof.Machine.execChResume c s
  | .chLock c => Sys2Proof.Machine.execChLock c s
  | .proofStart c => Sys2Proof.Machine.execProofStart c s
  | .calStart c => Sys2Proof.Machine.execCalStart c s
  | .repairBlock c => Sys2Proof.Machine.execRepairBlock c s
  | .repairRowRemap c => Sys2Proof.Machine.execRepairRowRemap c s
  | .fwStage c => Sys2Proof.Machine.execFwStage c s
  | .fwSwitch c => Sys2Proof.Machine.execFwSwitch c s
  | .imageSave c => Sys2Proof.Machine.execImageSave c s
  | .devReset c => Sys2Proof.Machine.execDevReset c s
  | .devResetChannel c => Sys2Proof.Machine.execDevResetChannel c s
  | .protPropose c => Sys2Proof.Machine.execProtPropose c s
  | .protCountersign c => Sys2Proof.Machine.execProtCountersign c s
  | .protWithdraw c => Sys2Proof.Machine.execProtWithdraw c s
  | .protStatus c => Sys2Proof.Machine.execProtStatus c s
  | .breachCfg c => Sys2Proof.Machine.execBreachCfg c s
  | .registerWrite addr val => Sys2Proof.Machine.execRegisterWrite addr val s
  | .profCtlWrite addr val => Sys2Proof.Machine.execProfCtlWrite addr val s
  | .kbPclsWrite cls val => Sys2Proof.Machine.execKbPclsWrite cls val s
  | .kbTplWrite addr val => Sys2Proof.Machine.execKbTplWrite addr val s
  | .rebuild ch => Sys2Proof.Machine.execRebuild ch s
  | .stampWrite ch val => Sys2Proof.Machine.execStampWrite ch val s
  | .ringEnWrite val => Sys2Proof.Machine.execRingEnWrite val s
  | .rejoin => Sys2Proof.Machine.execRejoin s
  | .seWdRangeWrite last val => Sys2Proof.Machine.execSeWdRangeWrite last val s
  | .bgDivWrite val => Sys2Proof.Machine.execBgDivWrite val s
  | .seGclHdrWrite n val => Sys2Proof.Machine.execSeGclHdrWrite n val s
  | .protProvision val => Sys2Proof.Machine.execProtProvision val s
  | .pwrBgCtlWrite val => Sys2Proof.Machine.execPwrBgCtlWrite val s
  | .retrain pg val => Sys2Proof.Machine.execRetrain pg val s
  | .pgEnableWrite pg val => Sys2Proof.Machine.execPgEnableWrite pg val s
  | .pcieRingCtlWrite val => Sys2Proof.Machine.execPcieRingCtlWrite val s
  | .dbSqTail val => Sys2Proof.Machine.execDbSqTail val s
  | .dbCqHead val => Sys2Proof.Machine.execDbCqHead val s
  | .avsEnWrite val => Sys2Proof.Machine.execAvsEnWrite val s
  | .tbSnapNsRead m => Sys2Proof.Machine.execTbSnapNsRead m s
  | .counterLowRead m addr => Sys2Proof.Machine.execCounterLowRead m addr s
  | .clearOnRead m addr => Sys2Proof.Machine.execClearOnRead m addr s
  | .mailboxWindowAccess x more => Sys2Proof.Machine.execMailboxWindowAccess x more s
  | .pcieUnmappedAccess write addr => Sys2Proof.Machine.execPcieUnmappedAccess write addr s
  | .searchAdmission ch => Sys2Proof.Machine.execSearchAdmission ch s
  | .holdLimitExpiry ch => Sys2Proof.Machine.execHoldLimitExpiry ch s
  | .keyBuild ch => Sys2Proof.Machine.execKeyBuild ch s
  | .exposureDebit => Sys2Proof.Machine.execExposureDebit s
  | .searchResultDelivery ch => Sys2Proof.Machine.execSearchResultDelivery ch s
  | .streamEngineVerdict ch => Sys2Proof.Machine.execStreamEngineVerdict ch s
  | .replyEgress ap => Sys2Proof.Machine.execReplyEgress ap s
  | .writeStep ch => Sys2Proof.Machine.execWriteStep ch s
  | .writeBubble ch => Sys2Proof.Machine.execWriteBubble ch s
  | .phaseCommit ch => Sys2Proof.Machine.execPhaseCommit ch s
  | .fixTimeEnd ch p => Sys2Proof.Machine.execFixTimeEnd ch p s
  | .washStep ch => Sys2Proof.Machine.execWashStep ch s
  | .sheetRebuild ch => Sys2Proof.Machine.execSheetRebuild ch s
  | .chLockCopyEnd ch => Sys2Proof.Machine.execChLockCopyEnd ch s
  | .keyCellReceive east cell => Sys2Proof.Machine.execKeyCellReceive east cell s
  | .resultCellMerge east cell => Sys2Proof.Machine.execResultCellMerge east cell s
  | .cascadeOriginMerge slot => Sys2Proof.Machine.execCascadeOriginMerge slot s
  | .lateResultCell cell => Sys2Proof.Machine.execLateResultCell cell s
  | .formationCell cell => Sys2Proof.Machine.execFormationCell cell s
  | .formingTimeout reach => Sys2Proof.Machine.execFormingTimeout reach s
  | .neighbourLost east => Sys2Proof.Machine.execNeighbourLost east s
  | .ringChangeCell live => Sys2Proof.Machine.execRingChangeCell live s
  | .fenceCell fence => Sys2Proof.Machine.execFenceCell fence s
  | .geometryCell dev profile geo => Sys2Proof.Machine.execGeometryCell dev profile geo s
  | .cascadeFrameReceive east f => Sys2Proof.Machine.execCascadeFrameReceive east f s
  | .slewEnd => Sys2Proof.Machine.execSlewEnd s
  | .ppsInEdge => Sys2Proof.Machine.execPpsInEdge s
  | .ppsLoss => Sys2Proof.Machine.execPpsLoss s
  | .ppsOutBoundary => Sys2Proof.Machine.execPpsOutBoundary s
  | .ppsOutPulseEnd => Sys2Proof.Machine.execPpsOutPulseEnd s
  | .watchdogSweepVisit => Sys2Proof.Machine.execWatchdogSweepVisit s
  | .backgroundVisit => Sys2Proof.Machine.execBackgroundVisit s
  | .eventCommit => Sys2Proof.Machine.execEventCommit s
  | .eventSpill => Sys2Proof.Machine.execEventSpill s
  | .spillwayWrite => Sys2Proof.Machine.execSpillwayWrite s
  | .qPushHeldComplete q => Sys2Proof.Machine.execQPushHeldComplete q s
  | .qPushTimeout q => Sys2Proof.Machine.execQPushTimeout q s
  | .workItemRelease => Sys2Proof.Machine.execWorkItemRelease s
  | .workDone q => Sys2Proof.Machine.execWorkDone q s
  | .otherMwRecompute => Sys2Proof.Machine.execOtherMwRecompute s
  | .thermalSample t => Sys2Proof.Machine.execThermalSample t s
  | .thermalShutdown t => Sys2Proof.Machine.execThermalShutdown t s
  | .gFloorWindow => Sys2Proof.Machine.execGFloorWindow s
  | .idleTimerExpiry ch => Sys2Proof.Machine.execIdleTimerExpiry ch s
  | .stateEntryComplete ch => Sys2Proof.Machine.execStateEntryComplete ch s
  | .channelWakeComplete ch => Sys2Proof.Machine.execChannelWakeComplete ch s
  | .preExposureWindowOpen ch w => Sys2Proof.Machine.execPreExposureWindowOpen ch w s
  | .preExposureWindowClose ch w => Sys2Proof.Machine.execPreExposureWindowClose ch w s
  | .darkroomEntry => Sys2Proof.Machine.execDarkroomEntry s
  | .darkroomWake src => Sys2Proof.Machine.execDarkroomWake src s
  | .darkroomExitComplete => Sys2Proof.Machine.execDarkroomExitComplete s
  | .bankGroupWakeComplete g => Sys2Proof.Machine.execBankGroupWakeComplete g s
  | .scrubRead ch => Sys2Proof.Machine.execScrubRead ch s
  | .scrubCorrectiveWrite ch => Sys2Proof.Machine.execScrubCorrectiveWrite ch s
  | .healWrite => Sys2Proof.Machine.execHealWrite s
  | .proofRowOp target ok => Sys2Proof.Machine.execProofRowOp target ok s
  | .proofRedirect ch => Sys2Proof.Machine.execProofRedirect ch s
  | .proofReturn ch => Sys2Proof.Machine.execProofReturn ch s
  | .proofPassEnd target trim => Sys2Proof.Machine.execProofPassEnd target trim s
  | .autoProofStart ch => Sys2Proof.Machine.execAutoProofStart ch s
  | .lentPageAccess => Sys2Proof.Machine.execLentPageAccess s
  | .blockRepairComplete ch => Sys2Proof.Machine.execBlockRepairComplete ch s
  | .rowRemap => Sys2Proof.Machine.execRowRemap s
  | .freeListRebuild => Sys2Proof.Machine.execFreeListRebuild s
  | .dataFlitReceive pg f fecOk => Sys2Proof.Machine.execDataFlitReceive pg f fecOk s
  | .ctrlFlitReceive pg f => Sys2Proof.Machine.execCtrlFlitReceive pg f s
  | .replayTimeout pg => Sys2Proof.Machine.execReplayTimeout pg s
  | .hostLoss pg => Sys2Proof.Machine.execHostLoss pg s
  | .trainingComplete port pol laneRev => Sys2Proof.Machine.execTrainingComplete port pol laneRev s
  | .drainEnd pg => Sys2Proof.Machine.execDrainEnd pg s
  | .lpiHeartbeat pg => Sys2Proof.Machine.execLpiHeartbeat pg s
  | .realignTimeout pg => Sys2Proof.Machine.execRealignTimeout pg s
  | .commandFetch words => Sys2Proof.Machine.execCommandFetch words s
  | .fetchError => Sys2Proof.Machine.execFetchError s
  | .msixMessage => Sys2Proof.Machine.execMsixMessage s
  | .coalTimeout => Sys2Proof.Machine.execCoalTimeout s
  | .functionLevelReset => Sys2Proof.Machine.execFunctionLevelReset s
  | .pcieLinkDown => Sys2Proof.Machine.execPcieLinkDown s
  | .mbxbsyPulseEnd sideB => Sys2Proof.Machine.execMbxbsyPulseEnd sideB s
  | .avsStep wanted => Sys2Proof.Machine.execAvsStep wanted s
  | .powerOnReset straps => Sys2Proof.Machine.execPowerOnReset straps s
  | .coldStart straps => Sys2Proof.Machine.execColdStart straps s
  | .warmReset straps => Sys2Proof.Machine.execWarmReset straps s
  | .resetAssert => Sys2Proof.Machine.execResetAssert s
  | .channelResetComplete ch => Sys2Proof.Machine.execChannelResetComplete ch s
  | .quiesceDrainComplete ch => Sys2Proof.Machine.execQuiesceDrainComplete ch s
  | .firmwareStart => Sys2Proof.Machine.execFirmwareStart s
  | .firmwareStartTimeout => Sys2Proof.Machine.execFirmwareStartTimeout s
  | .fwSwitchApply => Sys2Proof.Machine.execFwSwitchApply s
  | .fwSwitchTimeout => Sys2Proof.Machine.execFwSwitchTimeout s
  | .latentImageSave readBackOk => Sys2Proof.Machine.execLatentImageSave readBackOk s
  | .proposalWindowEnd => Sys2Proof.Machine.execProposalWindowEnd s
  | .mgmtAcc write addr val => Sys2Proof.Machine.execMgmtAcc write addr val s
  | .tapReset straps => Sys2Proof.Machine.execTapReset straps s
  | .extestInstruction code straps => Sys2Proof.Machine.execExtestInstruction code straps s
  | .temp => Sys2Proof.Machine.execTemp s
  | .state => Sys2Proof.Machine.execState s
  | .ident => Sys2Proof.Machine.execIdent s
  | .wake => Sys2Proof.Machine.execWake s
  | .temps => Sys2Proof.Machine.execTemps s
  | .alertResponseRead => Sys2Proof.Machine.execAlertResponseRead s
  | .snippetHandover ch => Sys2Proof.Machine.execSnippetHandover ch s
  | .exposureRefill => Sys2Proof.Machine.execExposureRefill s
  | .lfclkEdge => Sys2Proof.Machine.execLfclkEdge s
  | .setPendingTimeout => Sys2Proof.Machine.execSetPendingTimeout s
  | .ctrlFlitSend pg => Sys2Proof.Machine.execCtrlFlitSend pg s
  | .groupRealigned pg => Sys2Proof.Machine.execGroupRealigned pg s
  | .msixUnmask entry => Sys2Proof.Machine.execMsixUnmask entry s
  | .flashStageComplete image => Sys2Proof.Machine.execFlashStageComplete image s
  | .rangeDescriptorWrite => Sys2Proof.Machine.execRangeDescriptorWrite s
  | .latentImageDeveloped => Sys2Proof.Machine.execLatentImageDeveloped s
  | .firmwareLoaded image => Sys2Proof.Machine.execFirmwareLoaded image s
  | .pcieLinkUp speed width => Sys2Proof.Machine.execPcieLinkUp speed width s
  | .vddioRise => Sys2Proof.Machine.execVddioRise s

end Sys2Proof.Machine
end

