-- ==== Sys2Proof/Safety.lean ====
section
/-! DEFINITION. What the statements speak of: states in which a command is taken at once, states in which the block is stopped, the
invariant that every step keeps, and the canonical form of the SRAM. -/

namespace Sys2Proof.Machine

/-- The canonical form of the SRAM: its addresses strictly rise. An unlisted word was never written, which no stored word reads as
(12 R290, 13 R314), so equal memories are equal lists. -/
def Memory.wf (m : Sram) : Bool := mwf m

/-- The part serves, nothing waits for a unit that could take it within the CCLK, the next row leaves the units free to go
on, and every valid bit of the SRAM agrees with its parity (13 R314). -/
structure Calm (s : State) : Prop where
  run : s.dev.st = .run
  more : moreQ s = false
  soon : s.qm.soon = []
  late : s.dev.late = []
  echoes : s.dev.echoes = []
  units : unitsWait s = false
  lanes : lanesDue s.cclk s = []
  upd : ∀ c : Chn, (chan s c).upd.queue = []
  queue : s.fw.queue = []
  wait : s.ring.wait = []
  frames : ∀ east : Bool, framesDue s east = 0
  touched : s.qm.touched = []
  valid : s.vbad = []

/-- The part serves, and is not about to enter device DARKROOM (11 R279). -/
structure Serving (s : State) : Prop extends Calm s where
  stays : closing s = false

/-- The firmware takes the next command at once: it is up, runs nothing, and has nothing parked (15 R374). -/
structure FwReady (s : State) : Prop extends Serving s where
  up : s.fw.up = true
  boot : s.fw.bootSrc ≠ 2
  noSwitch : s.fw.switchWait = false
  free : fwBusy s = false
  noPark : s.fw.parked = []

/-- The header of a packet passes the checks after the opcode's (15 R370; 11 R262). -/
def GoodHead (op : Byte) (p : Pkt) : Prop := p.rsv52 = false ∧ p.rsv37 = 0 ∧ (op.toNat / 16 = 1 → p.cls ≠ 3)

/-- A packet without payload whose argument is zero. -/
def Plain (p : Pkt) : Prop := p.pay = [] ∧ p.arg = 0

/-- The state in which the firmware runs a command that passes its check: its arbiter has seen the CCLK (01 R444). -/
def takenIn (p : Pkt) (s : State) : State := { checkedIn p s with fw := { s.fw with arb := s.fw.arb.ask (cmdOf 0 p s) [] } }

/-- The state in which slot C runs a stream command that passes its check (09 R230). -/
def slotIn (p : Pkt) (s : State) : State := { checkedIn p s with se := { s.se with free := s.cclk + 1, arb := s.se.arb.ask (cmdOf 0 p s) [] } }

/-- The state in which the queue manager runs a command that passes its check. -/
def queueIn (p : Pkt) (s : State) : State :=
  { checkedIn p s with qm := { s.qm with unit := { s.qm.unit with free := s.cclk + 1, arb := s.qm.unit.arb.ask (cmdOf 0 p s) [] } } }

/-- The state in which the buffer pool runs a command that passes its check. -/
def poolIn (p : Pkt) (s : State) : State :=
  { checkedIn p s with pool := { s.pool with unit := { s.pool.unit with arb := s.pool.unit.arb.ask (cmdOf 0 p s) [] } } }

/-- The reply store of the port group has the slots for the reply of a firmware command that passes its check (14 R347). -/
def Roomy (op : Byte) (p : Pkt) (s : State) : Prop :=
  heldBack { takenIn p s with fw := { (takenIn p s).fw with queue := [cmdOf op p s] } } (cmdOf op p s) = false

/-- The reply store of the port group has the slots for the reply of an ECHO that passes its check (14 R347). -/
def EchoRoomy (p : Pkt) (s : State) : Prop :=
  slotsShort { checkedIn p s with dev := { s.dev with echoes := [cmdOf 0x01 p s] } } (cmdOf 0x01 p s) = false

/-- The queue manager with a command that passes its check at the head of its queue. -/
def queueHeld (op : Byte) (p : Pkt) (s : State) : State :=
  { checkedIn p s with qm := { s.qm with unit := { s.qm.unit with queue := [cmdOf op p s], arb := s.qm.unit.arb.ask (cmdOf 0 p s) [] } } }

/-- The reply store of the port group has the slots for the reply of a queue command that passes its check (14 R347). -/
def QueueRoomy (op : Byte) (p : Pkt) (s : State) : Prop := slotsShort (queueHeld op p s) (cmdOf op p s) = false

/-- Entry `x` lives in a block of channel `c` that lookup `j` of search `q` activates by `acts`: its rows match the lookup key, half-row by
half-row, its segment-0 row is valid and in the negative that the search evaluates, and its priority is the stored one, zero where poisoned
(02 R34-R36, R40, R41, R50; 05 R125). -/
structure LiveIn (s : State) (q : Srch) (c : Chn) (acts : List Nat) (j : Nat) (x : Cand) : Prop where
  act : ∃ a ∈ acts, actLk a = j ∧ actChan a = c ∧ a % 64 = x.pos ∧
    x.entry = ((q.blks.find? (·.1 == a)).map (·.2)).getD 0 * perBlock (nth q.cfg j 0) + x.row / cfgG (nth q.cfg j 0)
  place : x.row < 8192 ∧ x.row % cfgG (nth q.cfg j 0) = 0
  stands : ∃ r, (servePhys (chan s c) x.pos * 8192 + x.row, r) ∈ (chan s c).rows ∧ rowValid r = true ∧ rowIn r (nth q.negs j false) = true
  halves : ∀ h < 2 * cfgG (nth q.cfg j 0), ∀ d m k : BitVec 40,
    d = (rowAt (chan s c) (servePhys (chan s c) x.pos) (x.row + h / 2)).d.extractLsb' (40 * (h % 2)) 40 →
    m = (rowAt (chan s c) (servePhys (chan s c) x.pos) (x.row + h / 2)).m.extractLsb' (40 * (h % 2)) 40 →
    k = (lookupKey (nth q.cfg j 0) (nth q.prof.lk j 0) q.key).extractLsb' (40 * h) 40 →
    (if cfgRange (nth q.cfg j 0) h then rangeMatch d m k else ternMatch d m k) = true
  prio : ∀ v e b, readHalf (prioWord (chan s c) (adIdx x.pos x.row)) (adIdx x.pos x.row) = (v, e, b) →
    x.prio = if e = .poisoned then 0 else v

/-- `u` with the reply of a command that `p` brought and that has the number `id`. -/
def replied (op : Byte) (p : Pkt) (id : Nat) (st : Byte) (info : BitVec 24) (pay : List Word) (ready : Nat) (u : State) : State :=
  { u with replies := u.replies ++ [{ ap := p.ap, op := op, status := st, tag := p.tag, info := info, pay := pay, id := id, ready := ready }] }

/-- The exposure balance is that of this CCLK, and no search and no debit is under way: an access to a register meets nothing that it
would have to bring up to date first (11 R263). -/
structure Settled (s : State) : Prop where
  noSearch : s.searches = []
  noDebit : s.xpo.debits = []
  now : s.xpo.refAt = s.cclk

/-- What every step leaves behind while the core domain runs: no proposal is outstanding beyond its window unless a countersign in time
still waits (16 R397); a save that waits at the head of the saves has been started (17 R409); a channel that leads its group, once the
part serves, serves searches or is being washed (17 R407). -/
structure Tidy (s : State) : Prop where
  props : running s = true → ∀ p ∈ s.prot.props, p.until_ ≤ s.cclk → csWaits s p = true
  saves : running s = true → ∀ x ∈ s.saves.head?, x.img.isSome = true
  leads : s.dev.st = .run → ∀ c : Chn, isLead s c = true → (chan s c).ready = true ∨ washing s c = true

/-- What every step keeps of the stores: the words of the SRAM and the descriptors of the queues stand in rising order, no queue holds
more words than its region has, and its pointers are one bit wider than the region's address (10 R243; 12 R290; 13 R314); the descriptors
still to be written by a range begin empty (10 R238). -/
structure Stored (s : State) : Prop where
  words : Memory.wf s.sram = true
  descs : mwf s.qm.desc = true
  bounds : ∀ q, (qDesc s q).wr < 2 ^ ((qDesc s q).k + 1) ∧ (qDesc s q).rd < 2 ^ ((qDesc s q).k + 1) ∧ depth (qDesc s q) ≤ 2 ^ (qDesc s q).k
  range : ∀ j, s.qm.range = some j → j.desc.wr = 0 ∧ j.desc.rd = 0

/-- Search `q` of channel `c` is this part's own, is not pinned to a stamp, and is offered for admission in CCLK `d`. -/
structure OfferedAt (c : Chn) (d : Nat) (q : Srch) : Prop where
  stage : q.stage = .offer d
  ch : q.ch = c
  mem : q.mem = none
  org : q.org = none
  wq : q.cmd.wq = none
  given : q.given = true
  op : q.cmd.op ≠ 0x12

/-- Search `q` as channel `c` admits it in CCLK `d`: it holds the live negatives, the stamp and the partition settings of that CCLK (01
R20; 06 R160). -/
def admittedAs (s : State) (c : Chn) (d : Nat) (q : Srch) : Srch :=
  { q with
    stage := .pipe d, negs := q.prof.lk.map (fun x => (partOf s c (lkPart x)).live), stamp := (chan s c).stamp
    cfg := q.prof.lk.map fun x => cfgOf s c (lkPart x), blks := blocksOf s q }

/-- A write of `v` to the register at `a` through the PCIe window is accepted: the address holds a register of fields, no CS field changes,
and the register's own rules are met (00 R5, R6; 01 R28). -/
def Accepted (a : Nat) (v : Reg) (s : State) : Prop :=
  ∃ i, regInfo s.part.grade a = some i ∧ i.kind = .fields ∧ getReg s a &&& i.cs = v &&& i.cs ∧
    ownRule s 8 a (getReg s a) (stored i .window (getReg s a) v) v = none

/-- Commands and events that reach the block while the core domain is stopped or held in reset: the resets, the always-on service
interfaces, the thermal monitor, the wake from device DARKROOM, the link heartbeats and the supply of the store (11 R272, R280; 14 R352;
17 R402; 18 R425-R437). -/
def alwaysOn : Instr → Bool
  | .thermalSample .. | .thermalShutdown .. | .darkroomWake .. | .darkroomExitComplete | .lpiHeartbeat .. | .realignTimeout ..
  | .groupRealigned .. | .powerOnReset .. | .coldStart .. | .warmReset .. | .resetAssert | .mgmtAcc .. | .tapReset ..
  | .extestInstruction .. | .temp | .state | .ident | .wake | .temps | .alertResponseRead | .lfclkEdge | .vddioRise => true
  | _ => false

end Sys2Proof.Machine
end

