-- ==== Sys2Proof/Certificates/Slice0/Obligations.lean ====
section
/-! DEFINITION. The statements for the provers. A command's packet statements speak of a state in which nothing waits (`Serving`,
`FwReady`): the command then takes effect at once, and `afterwards` stands for the states that follow within the CCLK (AfterwardsFrame says
what that may change). -/

open Sys2Proof Sys2Proof.Machine

/-- STEP TAKES THE FRONT: with a command at the front of its queue, a step is that command's effect on the state with the rest. -/
def Obligations.StepTakesFront : Prop :=
  ∀ (c : Instr) (rest : List Instr) (s : State), step { s with pending := c :: rest } = exec c { s with pending := rest }

/-- EVERY STEP ANSWERS A NEXT STATE; with no command waiting a running block lets one CCLK pass, and a stopped one stays as it is (the
idle step is the model's choice, notes/assumptions/4.md: the table has no row for the clock). -/
def Obligations.StepAnswers : Prop :=
  (∀ s : State, ∃ t, step s = .next t) ∧
  (∀ s : State, s.pending = [] →
     (running s = true → step s = .next (settle (advance 1 s))) ∧ (running s = false → step s = .next s))

/-- A STOPPED CORE DOMAIN: while the core domain is stopped or held in reset, nothing but the resets, the service interfaces, the thermal
monitor and the wake changes anything (01 R25, 17 R402). -/
def Obligations.StoppedCoreUnmoved : Prop :=
  ∀ (i : Instr) (s : State), running s = false → alwaysOn i = false → exec i s = .next s

/-- EVERY STEP LEAVES THE STATE TIDY: an invariant of the whole machine over every command. While the core domain runs, no proposal is
outstanding beyond its window unless a countersign in time still waits (16 R397), and the save at the head of the saves has been started
(17 R409); once the part serves, a channel that leads its group serves searches or is being washed (17 R407). -/
def Obligations.StepKeepsTidy : Prop :=
  ∀ s t : State, Tidy s → step s = .next t → Tidy t

/-- EVERY STEP KEEPS THE STORES IN FORM: an invariant of the whole machine over every command. The SRAM and the queue descriptors keep their
canonical form, and no queue ever holds more words than its region has (10 R243; 12 R290; 13 R314). -/
def Obligations.StepKeepsStored : Prop :=
  ∀ s t : State, Stored s → step s = .next t → Stored t

/-- THE STATE AFTER RESET is tidy, its stores are in form, and its registers hold their Factory values: the exposure budget, cap and
reserve, the PPS width, the fix time, the proposal window, the proof interval, the push limit; every channel is INDEPENDENT; the part is
in factory state; no SRAM word has been written and no command waits. (That the state after reset is the start of start-up is the model's
choice, notes/assumptions/7.md; the cap of 75,000 is that of the -12I part, which the model chose, notes/assumptions/1.md.) -/
def Obligations.ResetState : Prop :=
  (Tidy State.reset) ∧ (Stored State.reset) ∧
  (getReg State.reset 0x20000 = 30000 ∧ getReg State.reset 0x20004 = 75000 ∧ getReg State.reset 0x20008 = 2400000 ∧
     getReg State.reset 0x2000C = 240000 ∧ getReg State.reset 0x10014 = 100000 ∧ getReg State.reset 0x40 = 1000 ∧
     getReg State.reset 0x30008 = 10 ∧ getReg State.reset 0x82000 = 1000 ∧ getReg State.reset 0x70000 = 100 ∧
     (∀ c : Chn, lockMode State.reset c = 0 ∧ groupOf State.reset c = [c] ∧ getReg State.reset (chAddr c 0x6000) = 1024) ∧
     factoryState State.reset = true ∧ State.reset.sram = [] ∧ State.reset.pending = [])

/-- WHAT FOLLOWS A COMMAND LEAVES EVERYTHING ELSE: `afterwards` may change power states, credit hold-off and its count, ended proposals,
image saves and the channels' readiness, and nothing else. -/
def Obligations.AfterwardsFrame : Prop :=
  ∀ s t : State, t = afterwards s →
    t.pending = s.pending ∧ t.part = s.part ∧ t.pins = s.pins ∧ t.dev = s.dev ∧ t.cclk = s.cclk ∧ t.nextId = s.nextId ∧ t.tb = s.tb ∧
    t.regs = s.regs ∧ t.cnt = s.cnt ∧ t.shadow = s.shadow ∧ t.cfgBad = s.cfgBad ∧ t.pclsWas = s.pclsWas ∧ t.tplWas = s.tplWas ∧
      t.searches = s.searches ∧ t.replies = s.replies ∧
    t.sram = s.sram ∧ t.vbad = s.vbad ∧ t.poisonSeen = s.poisonSeen ∧ t.lentWait = s.lentWait ∧ t.bgCur = s.bgCur ∧ t.bgWait = s.bgWait ∧
      t.qm = s.qm ∧
    t.xpo = s.xpo ∧ t.se = s.se ∧ t.ring = s.ring ∧ t.wdNext = s.wdNext ∧ t.wdAt = s.wdAt ∧ t.wdDisc = s.wdDisc ∧ t.bgNext = s.bgNext ∧
      t.bgAt = s.bgAt ∧
    t.bgPass = s.bgPass ∧ t.pool = s.pool ∧ t.mbx = s.mbx ∧ t.pcie = s.pcie ∧ t.brx = s.brx ∧ t.fw = s.fw ∧ t.log = s.log ∧
    t.healQ = s.healQ ∧ t.sramProof = s.sramProof ∧ t.remaps = s.remaps ∧ t.remapRun = s.remapRun ∧ t.svc = s.svc ∧
    (∀ c : Chn, chan t c = { chan s c with pwr := (chan t c).pwr, ready := (chan t c).ready }) ∧
    (∀ g : Fin 8, t.pg[g] = { s.pg[g] with holdAt := t.pg[g].holdAt })

/-- NOP replies with a header only; a NOP with a payload is refused with ST_BADLEN, and one with a non-zero argument bit with ST_BADARG.
ECHO returns its payload unchanged, and `info` equal to the command's `arg` (15 R379), once the reply store has the slots for its reply (14
R347). The header passes the checks of 15 R370. -/
def Obligations.NopEcho : Prop :=
  ∀ (p : Pkt) (s : State), Serving s →
    (GoodHead 0x00 p →
      exec (.nop p) s = .next (afterwards (replied 0x00 p s.nextId
        (if p.pay ≠ [] then stBadLen else if p.arg ≠ 0 then stBadArg else stOk) 0 [] (s.cclk + 6) (checkedIn p s)))) ∧
    (GoodHead 0x01 p →
      (EchoRoomy p s → exec (.echo p) s = .next (afterwards (replied 0x01 p s.nextId stOk p.arg p.pay (s.cclk + 6) (checkedIn p s)))) ∧
      (¬ EchoRoomy p s →
        exec (.echo p) s = .next (afterwards { checkedIn p s with dev := { s.dev with echoes := [cmdOf 0x01 p s] } })))

/-- A TERNARY HALF-ROW MATCHES where every key bit that its mask keeps equals its data bit, A RANGE SLOT where the value lies in its
range, which wraps when its low end is above its high end, and the tag agrees under its mask (02 R34, R40). OF TWO ENTRIES that match the
one with the higher priority wins, then the one of the lower device id, then the lower entry number; exactly one of two entries of a
device is the better (02 R43). -/
def Obligations.MatchRules : Prop :=
  ((∀ d m k : BitVec 40, ternMatch d m k = true ↔ ∀ i < 40, m.getLsbD i = true → d.getLsbD i = k.getLsbD i) ∧
   (∀ d m k : BitVec 40, rangeMatch d m k = true ↔
     (let lo := (d.extractLsb' 24 16).toNat; let hi := (m.extractLsb' 24 16).toNat; let v := (k.extractLsb' 24 16).toNat
      if lo ≤ hi then lo ≤ v ∧ v ≤ hi else lo ≤ v ∨ v ≤ hi) ∧
     ∀ i < 8, m.getLsbD i = true → d.getLsbD i = k.getLsbD i)) ∧
  (∀ a b : Cand, a.entry ≠ b.entry →
     (better a b = true ↔ b.prio.toNat < a.prio.toNat ∨ a.prio = b.prio ∧ a.entry < b.entry) ∧ better a b = !better b a) ∧
  (∀ a b : LkRes, a.hit = true → b.hit = true →
     (ranksFirst a b = true ↔ b.prio.toNat < a.prio.toNat ∨ a.prio = b.prio ∧ (a.dev.toNat < b.dev.toNat ∨ a.dev = b.dev ∧ a.entry < b.entry)))

/-- A SEARCH PASSES ITS CHECK: it joins the searches in flight with its profile, ingress time and phase, to be offered for admission 4
CCLK later (15 R378; 05 R127); an HSRCH with its snippet in the packet waits for the key builder (04 R89, R93); one that its check refuses
is answered 2 CCLK later and counts nowhere. The group serves, is ACTIVE, and the profile is not cascaded. That such a refusal's reply is
complete 2 CCLK after the check is the model's reading (notes/assumptions/52.md). -/
def Obligations.SearchEnters : Prop :=
  (∀ (p : Pkt) (s : State) (op : Byte) (i : Instr) (pr : Prof) (l : Chn),
     (op = 0x10 ∧ i = .srch p ∨ op = 0x12 ∧ i = .srch2 p) → Serving s → GoodHead op p →
     pr = profOf s (fld p.arg 6 0) → l = profLead pr →
     srchBad s (cmdOf op p s) = none → shut s l = false → lockMode s l ≠ 3 → leadOf s l = l →
     inFlight s l < 4096 → cascaded s (fld p.arg 6 0) = false → isActive s l = true → (pwrOf s l).waking = none →
     exec i s = .next (afterwards { checkedIn p s with searches := s.searches ++ [
       { cmd := cmdOf op p s, tChk := s.tb.t, phase := phaseNow s (fld pr.kb 29 26), prof := pr, ch := l, cls := p.cls,
         ord := srchOrd s (cmdOf op p s) pr, org := none, stage := .offer (s.cclk + 4), stampIn := BitVec.ofNat 8 (fld p.arg 15 8),
         key := carriedKey (cmdOf op p s) }] })) ∧
  (∀ (p : Pkt) (s : State) (pr : Prof) (l : Chn), Serving s → GoodHead 0x11 p →
     pr = profOf s (fld p.arg 6 0) → l = profLead pr →
     hsrchBad s (cmdOf 0x11 p s) = none → fld p.arg 11 11 = 0 → fld p.arg 12 12 = 0 →
     shut s l = false → lockMode s l ≠ 3 → leadOf s l = l → inFlight s l < 4096 → cascaded s (fld p.arg 6 0) = false →
     isActive s l = true → (pwrOf s l).waking = none →
     exec (.hsrch p) s = .next (afterwards { checkedIn p s with searches := s.searches ++ [
       { cmd := cmdOf 0x11 p s, tChk := s.tb.t, phase := phaseNow s (fld pr.kb 29 26), prof := pr, ch := l, cls := p.cls,
         ord := srchOrd s (cmdOf 0x11 p s) pr, org := none, stage := .snippet (s.cclk + 4), stampIn := BitVec.ofNat 8 (fld p.arg 15 8),
         desc := payW (cmdOf 0x11 p s) 0, pcls := pclsNow s (fld p.arg 10 7),
         bytes := snipBytes (p.pay.drop 1) (fld (payW (cmdOf 0x11 p s) 0) 8 0) }] })) ∧
  (∀ (p : Pkt) (s : State) (op : Byte) (i : Instr) (st : Byte),
     (op = 0x10 ∧ i = .srch p ∨ op = 0x12 ∧ i = .srch2 p) → Serving s → GoodHead op p → srchBad s (cmdOf op p s) = some st →
     ∃ u, exec i s = .next (afterwards u) ∧ u.searches = s.searches ∧ u.sram = s.sram ∧ u.regs = s.regs ∧
       ∃ r, u.replies = s.replies ++ [r] ∧ r.status = st ∧ r.pay = [] ∧ r.ap = p.ap ∧ r.tag = p.tag ∧ r.ready = s.cclk + 2 ∧ r.cnt = none)

/-- A SEARCH GOES THROUGH ITS STAGES, one command or event each: the snippet is handed to the key builder, the key is ready 12 CCLK later,
the search is admitted, its results are delivered 45 CCLK after its admission, a stream verdict 16 CCLK after them, and a search whose
hold limit ends without budget is refused (01 R19, R20; 02 R47; 04 R89; 05 R117; 09 R208; 11 R266). THE WINNER of a lookup is the best entry
that lives in the blocks activated: the lookup hits when there is one, and its result word and associated data are those of the one no other
ranks before (02 R34-R45; 05 R120). One search is in flight, in an INDEPENDENT channel that is ACTIVE and serves. That a refusal's reply is
complete 2 CCLK later is the model's reading (notes/assumptions/52.md). -/
def Obligations.SearchStages : Prop :=
  ∀ (s : State) (q : Srch) (c : Chn), Calm s → s.searches = [q] → q.ch = c → q.mem = none → q.org = none → q.cmd.wq = none → q.given = true →
    lockMode s c = 0 → leadOf s c = c → groupOf s c = [c] → isActive s c = true → (pwrOf s c).waking = none → shut s c = false →
    s.dev.level ≠ 2 → s.xpo.debits = [] → (chan s c).pends = [] → (chan s c).openFrom ≤ s.cclk →
    (∀ d cause key layer pos, q.stage = .snippet d → s.cclk ≤ d → q.fromBuf = none →
      buildKey (tplAt d s) q.pcls q.desc q.bytes = (cause, key, layer, pos) →
      ∃ t, exec (.snippetHandover c) s = .next t ∧ t.cclk = d ∧ t.searches = [{ q with
        stage := .walk (d + 12), cause := cause, key := putPhase q.prof.kb q.phase key, failAt := (layer, pos) }]) ∧
    (∀ d, q.stage = .walk d → s.cclk ≤ d → q.cause = 0 →
      ∃ t, exec (.keyBuild c) s = .next t ∧ t.cclk = d ∧ t.searches = [{ q with stage := .offer d }] ∧ t.cnt = s.cnt) ∧
    (∀ d, q.stage = .offer d → s.cclk ≤ d → (chan s c).admNext ≤ d → q.cls = 0 → q.cmd.op ≠ 0x12 → (chan s c).bubbleAt ≠ some d →
      partGone s q = false →
      ∃ t, exec (.searchAdmission c) s = .next t ∧ t.cclk = d ∧ t.searches = [{ q with
        stage := .pipe d, negs := q.prof.lk.map (fun x => (partOf s c (lkPart x)).live), stamp := (chan s c).stamp,
        cfg := q.prof.lk.map fun x => cfgOf s c (lkPart x), blks := blocksOf s q }]) ∧
    (∀ adm acts rs, q.stage = .pipe adm → s.cclk ≤ adm + 45 → q.acts = some acts → q.cmp = some rs → profSe q.prof.ctl = false →
      q.ctxBad = false → poisonReport rs = none → (∀ r ∈ rs, r.part = false ∧ r.sec = none ∧ r.prioPois = false ∧ r.adPois.any id = false) →
      q.cmd.op = 0x10 →
      ∃ t r, exec (.searchResultDelivery c) s = .next t ∧ t.cclk = adm + 45 ∧ t.searches = [] ∧ t.replies = s.replies ++ [r] ∧
        r.status = stOk ∧ r.pay = rs.zipIdx.flatMap (fun x => lkWords q x.2 x.1) ∧ r.info = BitVec.ofNat 24 (heldInfo q + q.stamp.toNat) ∧
        r.ap = q.cmd.p.ap ∧ r.tag = q.cmd.p.tag ∧ r.ready = adm + 47 ∧ r.ord = q.ord ∧ r.cnt = some c) ∧
    (∀ adm acts, q.stage = .pipe adm → s.cclk ≤ adm + 45 → q.cmp = none → profSe q.prof.ctl = false → q.ctxBad = false →
      (q.acts = some acts ∨ q.acts = none ∧ acts = q.blks.map (·.1) ∧ ∀ j, cfgSlice (nth q.cfg j 0) = false) →
      ∃ (t : State) (r : Reply) (rs : List LkRes) (rest : List Word), exec (.searchResultDelivery c) s = .next t ∧
        t.replies = s.replies ++ [r] ∧ r.id = q.cmd.id ∧
        r.pay = rs.zipIdx.flatMap (fun x => lkWords q x.2 x.1) ++ rest ∧ rs.length = q.prof.lk.length ∧
        ∀ (j : Nat) (x : LkRes), rs[j]? = some x →
          (x.hit = true ↔ ∃ y, LiveIn s q c acts j y) ∧
          (x.hit = true → ∃ y, LiveIn s q c acts j y ∧ x.entry = y.entry ∧ x.prio = y.prio ∧ (∀ z, LiveIn s q c acts j z → better z y = false) ∧
            ∀ k v, k < cfgG (nth q.cfg j 0) → adAt (chan s c) adm (adIdx y.pos y.row + k) = some (encode v) → nth x.ad k 0 = v)) ∧
    (∀ del rs v, q.stage = .lane del → s.cclk ≤ del + 16 → q.verdict = some v → q.cmp = some rs → q.ctxBad = false →
      poisonReport rs = none → (∀ r ∈ rs, r.part = false) → q.cmd.op = 0x10 →
      ∃ t r, exec (.streamEngineVerdict c) s = .next t ∧ t.cclk = del + 16 ∧ t.searches = [] ∧ t.replies = s.replies ++ [r] ∧
        r.status = stOk ∧ r.pay = rs.zipIdx.flatMap (fun x => lkWords q x.2 x.1) ++ [v] ∧ r.ready = del + 18) ∧
    (∀ since, q.stage = .hold since → (chan s c).admNext ≤ since + holdLimit s 1 → s.cclk ≤ since + holdLimit s 1 → q.cls = 1 →
      s.xpo.bal < 0 → s.xpo.effMw = 0 → s.xpo.deficit = false → (s.xpo.refAt = since + holdLimit s 1 → s.xpo.was < 0) →
      ∃ t r, exec (.holdLimitExpiry c) s = .next t ∧ t.cclk = since + holdLimit s 1 ∧ t.searches = [] ∧ t.replies = s.replies ++ [r] ∧
        r.status = stBudget ∧ r.pay = [] ∧ r.ready = t.cclk + 2 ∧ r.cnt = some c ∧
        (satOf s (chAddr c 0x6040) = false → getCnt t (chAddr c 0x6040) = getCnt s (chAddr c 0x6040) + 1))

/-- WHICH SEARCH IS ADMITTED: a search of class A is admitted when the balance at the start of the CCLK is not negative, one of class B when
it holds the reserve, and else it is held; of three searches of class G offered together the first is admitted, the second held to the next
CCLK, the third refused; at HARD classes A and B are refused, and class G once the window has its floor; a group that serves no search
refuses those offered and held, and CH_QUIESCE those held (01 R20; 11 R265, R266, R271; 17 R416). A LANE'S VERDICT says that the stream
lookup missed, or what the record's filter decides where no other function of it is enabled (09 R210, R217, Table 9.5). One search is in
flight, or three, in an INDEPENDENT channel. The refusals' time and the order within a CCLK are the model's reading
(notes/assumptions/51.md, 52.md), the count of the window its choice (notes/assumptions/116.md). -/
def Obligations.AdmissionAndVerdict : Prop :=
  (∀ (s : State) (c : Chn) (d : Nat), Calm s → lockMode s c = 0 → leadOf s c = c → groupOf s c = [c] →
    isActive s c = true → (pwrOf s c).waking = none → s.xpo.debits = [] → (chan s c).pends = [] → (chan s c).openFrom ≤ s.cclk →
    s.xpo.effMw = 0 → s.xpo.deficit = false → s.xpo.bal ≤ burstEu s → (chan s c).bubbleAt ≠ some d → s.cclk ≤ d → (chan s c).admNext ≤ d →
    (∀ (q : Srch) (b : Int), s.searches = [q] → OfferedAt c d q → shut s c = false → s.dev.level ≠ 2 → partGone s q = false →
      q.cls = 1 ∨ q.cls = 2 → b = (if s.xpo.refAt = d then s.xpo.was else s.xpo.bal) → 0 < holdLimit s q.cls →
      ∃ t, exec (.searchAdmission c) s = .next t ∧ t.cclk = d ∧ t.replies = s.replies ∧ t.searches =
        [if (if q.cls = 1 then 0 else (regF s 0x2000C 23 0 : Int)) ≤ b then admittedAs s c d q else { q with stage := .hold d, heldSeq := 1 }]) ∧
    (∀ x y z : Srch, s.searches = [x, y, z] → (∀ q ∈ [x, y, z], OfferedAt c d q ∧ q.cls = 0 ∧ srchSrc q = srchSrc x) → shut s c = false →
      s.dev.level ≠ 2 → partGone s x = false → x.cmd.id < y.cmd.id → y.cmd.id < z.cmd.id → satOf s (chAddr c 0x6038) = false →
      ∃ t r, exec (.searchAdmission c) s = .next t ∧ t.cclk = d ∧ t.searches = [admittedAs s c d x, { y with stage := .gHeld }] ∧
        t.replies = s.replies ++ [r] ∧ r.id = z.cmd.id ∧ r.status = stBudget ∧ r.pay = [] ∧ r.ready = d + 2 ∧
        getCnt t (chAddr c 0x6038) = getCnt s (chAddr c 0x6038) + 1) ∧
    (∀ y : Srch, s.searches = [y] → y.stage = .gHeld → OfferedAt c d { y with stage := .offer d } → y.cls = 0 → shut s c = false →
      s.dev.level ≠ 2 → partGone s y = false → d = max s.cclk (chan s c).admNext →
      ∃ t, exec (.searchAdmission c) s = .next t ∧ t.cclk = d ∧ t.searches = [admittedAs s c d y] ∧ t.replies = s.replies) ∧
    (∀ q : Srch, s.searches = [q] → OfferedAt c d q → shut s c = false → s.dev.level = 2 → satOf s (chAddr c 0x6048) = false →
      (q.cls = 1 ∨ q.cls = 2 ∨
        q.cls = 0 ∧ (chan s c).win.no = d / 1024 ∧ regF s (chAddr c 0x600C) 10 0 ≤ (chan s c).win.gAdm) →
      ∃ t r, exec (.searchAdmission c) s = .next t ∧ t.cclk = d ∧ t.searches = [] ∧ t.replies = s.replies ++ [r] ∧ r.status = stThermal ∧
        r.pay = [] ∧ r.ready = d + 2 ∧ getCnt t (chAddr c 0x6048) = getCnt s (chAddr c 0x6048) + 1) ∧
    (∀ q : Srch, s.searches = [q] → OfferedAt c d q → shut s c = true →
      ∃ t r, exec (.searchAdmission c) s = .next t ∧ t.cclk = d ∧ t.searches = [] ∧ t.replies = s.replies ++ [r] ∧ r.status = stQuiesced ∧
        r.pay = [] ∧ r.ready = d + 2)) ∧
  (∀ (p : Pkt) (s : State) (c : Chn) (q : Srch) (since : Nat), FwReady s → GoodHead 0x58 p → p.pay = [] →
    p.arg = BitVec.ofNat 24 (c.val * 2 ^ 6) → lockMode s c = 0 → leadOf s c = c → groupOf s c = [c] → (chan s c).quiesced = false →
    s.searches = [q] → q.stage = .hold since → OfferedAt c since { q with stage := .offer since } →
    ∃ t r, exec (.chQuiesce p) s = .next t ∧ t.cclk = s.cclk ∧ t.searches = [] ∧ t.replies = s.replies ++ [r] ∧ r.status = stQuiesced ∧
      r.pay = [] ∧ r.ready = s.cclk + 2 ∧ r.id = q.cmd.id ∧ (chan t c).draining = true ∧ t.fw.parked = [⟨cmdOf 0x58 p s, .quiesce c⟩]) ∧
  (∀ (s : State) (q : Srch) (c : Chn) (rs : List LkRes), Calm s → s.searches = [q] → q.ch = c → q.mem = none → q.org = none →
    q.cmd.wq = none → q.given = true → lockMode s c = 0 → leadOf s c = c → q.cmp = some rs → q.ctxBad = false → poisonReport rs = none →
    (∀ r ∈ rs, r.part = false ∧ r.sec = none ∧ r.prioPois = false ∧ r.adPois.any id = false) → profSe q.prof.ctl = true → q.cmd.op = 0x10 →
    (∀ adm acts, q.stage = .pipe adm → s.cclk ≤ adm + 45 → q.acts = some acts → (nth rs (profSeLk q.prof.ctl) {}).hit = false →
      ∃ t x, exec (.searchResultDelivery c) s = .next t ∧ t.cclk = adm + 45 ∧ t.searches = [x] ∧ x.cmd = q.cmd ∧ x.stage = .lane (adm + 45) ∧
        x.cmp = some rs ∧ x.handle = none ∧ x.verdict = some (verdictWord (noStream 11) 0 q.tChk) ∧ t.replies = s.replies) ∧
    (∀ (del h : Nat) (ws : List Word), q.stage = .lane del → s.cclk ≤ del → q.verdict = none → q.handle = some h → h < 2 ^ 18 → ws.length = 8 →
      (∀ k (b : k < ws.length), rawWord s (recWord h k) = some (encode ws[k])) → bitAt (rw ws 0) 63 = true →
      (∀ i ∈ [62, 61, 60, 59, 58, 57, 53, 52, 51, 0], bitAt (rw ws 0) i = false) → fld (rw ws 6) 63 32 < 2 ^ 30 → fld (rw ws 6) 31 0 < 2 ^ 30 →
      ∃ t r, exec (.streamEngineVerdict c) s = .next t ∧ t.cclk = del + 16 ∧ t.searches = [] ∧ t.replies = s.replies ++ [r] ∧
        r.pay = rs.zipIdx.flatMap (fun x => lkWords q x.2 x.1) ++ [verdictWord
          (if fld (rw ws 0) 14 1 ≠ 0 ∧ fld (rw ws 0) 14 1 < frameLen q then { action := acDrop, reason := 1 } else { action := acPass })
          h q.tChk] ∧ r.ready = del + 18))

/-- UPDATE AND NEGATIVE COMMANDS join the queue of their group's update unit (06 R146; 15 R373). That they wait in one queue a group, each
with nothing refused here, is the model's choice (notes/assumptions/8.md, 57.md). -/
def Obligations.UpdateQueued : Prop :=
  ∀ (p : Pkt) (s : State) (op : Byte) (i : Instr) (l : Chn),
    (op = 0x20 ∧ i = .entWr p ∨ op = 0x21 ∧ i = .entRd p ∨ op = 0x22 ∧ i = .entIns p ∨ op = 0x23 ∧ i = .entDel p ∨
      op = 0x24 ∧ i = .prioWr p ∨ op = 0x25 ∧ i = .adWr p ∨ op = 0x26 ∧ i = .adRd p ∨ op = 0x28 ∧ i = .negOpen p ∨
      op = 0x29 ∧ (i = .negCommit p ∨ i = .negCommitAtPhase p) ∨ op = 0x2A ∧ i = .negAbort p) →
    Serving s → GoodHead op p → l = leadOf s (cmdCh (cmdOf op p s)) →
    exec i s = .next (afterwards (modUpd l (fun u => { u with queue := [cmdOf op p s], arb := u.arb.ask (cmdOf op p s) [] }) (checkedIn p s)))

/-- WRITE_STEP AND WRITE_BUBBLE make the step of an entry that is written whole: its rows hold the planes with fresh codes, and its
priority and associated data are those of the command, whose reply is complete 2 CCLK later (06 R139, R141, R146, R147). The step is made
in a CCLK in which its block compares for no lookup; after `bubble_after` CCLK without one a bubble writes 6 CCLK after its slot (how the
wait for the bubble counts is the model's reading, notes/assumptions/21.md). The partition slices nothing, and no pass moves its block. -/
def Obligations.EntryWritten : Prop :=
  ∀ (c l : Chn) (s : State) (cmd : Cmd) (p e pos : Nat) (d m : BitVec 640) (prio : BitVec 16) (ad : List Word) (a b : Bool) (w : Word) (st : WStep),
    Calm s → Settled s → l = leadOf s c → groupOf s l = [l] → w = cfgOf s l p → cfgSlice w = false → posOf s l p (e / perBlock w) = some pos →
    (chan s l).proof = none → (chan s l).corr = [] → ad.length = cfgG w →
      st = .create p e d m (encode (prio.setWidth 64)) (ad.map encode) a b → rowOf w e + cfgG w ≤ 8192 →
    (chan s l).upd.job = some { cmd := cmd, steps := [st], entry := e } → (chan s l).upd.nextAt ≤ s.cclk →
    isActive s l = true → cmd.wq = none → cmd.op ≠ 0x4D → e < 2 ^ 20 →
    ∀ (i : Instr) (late : Nat),
      (i = .writeStep c ∧ late = 0 ∧ stepFree s l st s.cclk = true ∨
        i = .writeBubble c ∧ late = 6 ∧ (chan s l).upd.nextAt + regF s (chAddr l 0x5100) 5 0 ≤ s.cclk ∧ bubbleSlot s l = true ∧
          hadFree l (max (chan s l).upd.nextAt (s.cclk - 72)) s = false) →
      ∃ t, exec i s = .next t ∧
        entryRows t l w p e = (List.range (cfgG w)).map (fun k => freshRow (seg d k) (seg m k) (ctlOf true a b (k == 0))) ∧
        storedPrio t l w p e = prio ∧ storedAd t l w p e = ad ∧ (chan t l).upd.job = none ∧
        t.replies = (replied cmd.op cmd.p cmd.id stOk (BitVec.ofNat 24 e) [] (s.cclk + late + 2) s).replies ∧
        (∀ r b', (b', r) ∉ (List.range (cfgG w)).map (fun k => (servePhys (chan s l) pos, rowOf w e + k)) → r < 8192 →
          rowAt (chan t l) b' r = rowAt (chan s l) b' r) ∧
        (∀ o : Chn, o ≠ l → (chan t o).rows = (chan s o).rows) ∧ t.sram = s.sram ∧ t.regs = s.regs ∧ t.cclk = s.cclk

/-- THE OTHER UPDATE STEPS change their own field alone: PRIO_WR the priority of its entry, AD_WR the associated-data words it names,
ENT_DEL the valid bits of its entry's rows, a move between the negatives the membership bits; ENT_RD answers the entry's planes, priority
and memberships, AD_RD its associated data (06 R138-R143, R148, R152; 13 R320). AT THE UNIT a command is taken: ENT_INS of a partition
without slices gets the lowest entry number that holds no valid entry (06 R144, Table 6.6), NEG_OPEN opens its partition, NEG_COMMIT makes
the other negatives of its partitions live with the next stamp, NEG_ABORT begins the wash, which ends at once where nothing is left to do
(06 R155, R158, R159). The CCLK in which the unit takes it is the model's choice (notes/assumptions/57.md). -/
def Obligations.UpdatesApplied : Prop :=
  (∀ (c l : Chn) (s : State) (cmd : Cmd) (p e pos : Nat) (w : Word) (st : WStep),
    Calm s → Settled s → l = leadOf s c → groupOf s l = [l] → w = cfgOf s l p → cfgSlice w = false → posOf s l p (e / perBlock w) = some pos →
    (chan s l).proof = none → (chan s l).corr = [] → (chan s l).upd.job = some { cmd := cmd, steps := [st], entry := e } →
    (chan s l).upd.nextAt ≤ s.cclk → stepFree s l st s.cclk = true → isActive s l = true → cmd.wq = none → cmd.op ≠ 0x4D → e < 2 ^ 20 →
    (∀ prio : BitVec 16, st = .setPrio p e prio → (chan s l).prioBad = [] →
      ∃ t, exec (.writeStep c) s = .next t ∧ storedPrio t l w p e = prio ∧
        (∀ i, i ≠ adIdx pos (rowOf w e) → (readHalf (prioWord (chan t l) i) i).1 = (readHalf (prioWord (chan s l) i) i).1) ∧
        (∀ o : Chn, (chan t o).rows = (chan s o).rows ∧ (chan t o).adm = (chan s o).adm ∧ (chan t o).sheet = (chan s o).sheet) ∧
        (chan t l).upd.job = none ∧ t.replies = (replied cmd.op cmd.p cmd.id stOk (BitVec.ofNat 24 e) [] (s.cclk + 2) s).replies ∧
        t.sram = s.sram ∧ t.regs = s.regs ∧ t.cclk = s.cclk) ∧
    (∀ (first : Nat) (ad : List Word), st = .setAd p e first ad → first + ad.length ≤ cfgG w →
      ∃ t, exec (.writeStep c) s = .next t ∧
        storedAd t l w p e = (storedAd s l w p e).take first ++ ad ++ (storedAd s l w p e).drop (first + ad.length) ∧
        (∀ i, (∀ k < ad.length, i ≠ adIdx pos (rowOf w e) + first + k) → adWord (chan t l) i = adWord (chan s l) i) ∧
        (∀ o : Chn, (chan t o).rows = (chan s o).rows ∧ (chan t o).prio = (chan s o).prio ∧ (chan t o).sheet = (chan s o).sheet) ∧
        (chan t l).upd.job = none ∧ t.replies = (replied cmd.op cmd.p cmd.id stOk (BitVec.ofNat 24 e) [] (s.cclk + 2) s).replies ∧
        t.sram = s.sram ∧ t.regs = s.regs ∧ t.cclk = s.cclk) ∧
    (st = .kill p e ∨ (∃ a b, st = .member p e a b) →
      ∃ t, exec (.writeStep c) s = .next t ∧
        (entryRows t l w p e).map (fun r => (r.d, r.m)) = (entryRows s l w p e).map (fun r => (r.d, r.m)) ∧
        (st = .kill p e → ∀ r ∈ entryRows t l w p e, rowValid r = false) ∧
        (∀ a b, st = .member p e a b → entCtl t l w p e = ctlOf (entValid s l w p e) a b (bitAt (entCtl s l w p e) 0) ∧
          (entryRows t l w p e).drop 1 = (entryRows s l w p e).drop 1) ∧
        (∀ r b, (b, r) ∉ (List.range (cfgG w)).map (fun k => (servePhys (chan s l) pos, rowOf w e + k)) → r < 8192 →
          rowAt (chan t l) b r = rowAt (chan s l) b r) ∧
        (∀ o : Chn, (o ≠ l → (chan t o).rows = (chan s o).rows) ∧ (chan t o).adm = (chan s o).adm ∧ (chan t o).prio = (chan s o).prio) ∧
        (chan t l).upd.job = none ∧ t.replies = (replied cmd.op cmd.p cmd.id stOk (BitVec.ofNat 24 e) [] (s.cclk + 2) s).replies ∧
        t.sram = s.sram ∧ t.regs = s.regs ∧ t.cclk = s.cclk) ∧
    (∀ (d m : BitVec 640) (a b : Bool) (prio : BitVec 16), st = .readEnt p e → d.toNat < 2 ^ cfgW w → m.toNat < 2 ^ cfgW w →
      entryRows s l w p e = (List.range (cfgG w)).map (fun k => freshRow (seg d k) (seg m k) (ctlOf true a b (k == 0))) →
      readHalf (prioWord (chan s l) (adIdx pos (rowOf w e))) (adIdx pos (rowOf w e)) = (prio, .correct, 0) →
      ∃ t, exec (.writeStep c) s = .next t ∧ (∀ o : Chn, (chan t o).rows = (chan s o).rows) ∧ (chan t l).upd.job = none ∧
        t.replies = (replied cmd.op cmd.p cmd.id stOk (BitVec.ofNat 24 e)
          (pack 64 [(1, 61, 61), (b2n a, 60, 60), (b2n b, 59, 59), (prio.toNat, 35, 20), (e, 19, 0)] :: (planeWords w d ++ planeWords w m))
          (s.cclk + 2) s).replies ∧ t.sram = s.sram ∧ t.regs = s.regs ∧ t.cclk = s.cclk) ∧
    (∀ ws : List Word, st = .readAd p e → ws.length = cfgG w → entValid s l w p e = true → (chan s l).adWas = [] →
      (∀ k (h : k < ws.length), adWord (chan s l) (adIdx pos (rowOf w e) + k) = some (encode ws[k])) →
      ∃ t, exec (.writeStep c) s = .next t ∧ (∀ o : Chn, (chan t o).rows = (chan s o).rows) ∧ (chan t l).upd.job = none ∧
        t.replies = (replied cmd.op cmd.p cmd.id stOk (BitVec.ofNat 24 e) ws (s.cclk + 2) s).replies ∧ t.sram = s.sram ∧ t.regs = s.regs ∧
        t.cclk = s.cclk)) ∧
  (∀ (l : Chn) (u s : State) (cmd : Cmd) (n p : Nat) (w : Word),
    Calm u → u.searches = [] → u.pending = [] → u.ring.east.st ≠ .up → u.ring.west.st ≠ .up → leadOf u l = l →
    s = modUpd l (fun v => { v with queue := [cmd] }) u → cmd.wq = none → cmdCh cmd = l → p = cmdPart cmd → w = cfgOf u l p →
    n = max (chan u l).upd.takeAt (cmd.chk + 1) → n ≤ u.cclk + 1 → (chan u l).upd.job = none → washing u l = false → inCopy u l = false →
    (chan u l).resetting = none →
    (cmd.op = 0x22 → updBad u cmd = none → groupOf u l = [l] → cfgSlice w = false → (∀ b < cfgBlocks w, (posOf u l p b).isSome = true) →
      ∃ t f d m prio ad, step s = .next t ∧
        (chan t l).upd.job = some { cmd := cmd, entry := f, steps := [.create p f d m prio ad
          (if (partOf u l p).st = .opened then (partOf u l p).live else true) (if (partOf u l p).st = .opened then !(partOf u l p).live else true)] } ∧
        (d, m) = ((cmdPlanes cmd w).1, (cmdPlanes cmd w).2.1) ∧ prio = encode (BitVec.ofNat 64 (fld (payW cmd 0) 35 20)) ∧
        f < cfgEntries w ∧ (∀ x ∈ listed u l w p, bitAt x.2 3 = true → x.1 ≠ f) ∧
        (∀ g < f, ∃ x ∈ listed u l w p, bitAt x.2 3 = true ∧ x.1 = g) ∧
        (chan t l).upd.queue = [] ∧ t.replies = u.replies ∧ (∀ o : Chn, (chan t o).rows = (chan u o).rows) ∧ t.sram = u.sram) ∧
    (cmd.op = 0x28 → negBad u n cmd = none →
      ∃ t, step s = .next t ∧ (partOf t l p).st = .opened ∧ (partOf t l p).live = (partOf u l p).live ∧
        (∀ x, x ≠ p → partOf t l x = partOf u l x) ∧ (chan t l).upd.queue = [] ∧
        t.replies = (replied 0x28 cmd.p cmd.id stOk 0 [] n u).replies ∧ (∀ o : Chn, (chan t o).rows = (chan u o).rows) ∧ t.sram = u.sram) ∧
    (cmd.op = 0x29 → fld cmd.p.arg 8 8 = 0 → negBad u n cmd = none →
      ∃ t r, step s = .next t ∧ (chan t l).stamp = (chan u l).stamp + 1 ∧ (chan t l).upd.queue = [] ∧
        (∀ x < 64, (payW cmd 0).getLsbD x = true → (partOf t l x).live = !(partOf u l x).live ∧ (partOf t l x).st = .fixing ∧
          (partOf t l x).fixEnd = n + fixTime u l x ∧ (partOf t l x).last = some n) ∧
        (∀ x < 64, (payW cmd 0).getLsbD x = false → partOf t l x = partOf u l x) ∧
        t.replies = u.replies ++ [r] ∧ r.status = stOk ∧ r.info = BitVec.ofNat 24 ((chan u l).stamp + 1).toNat ∧ r.pay = [] ∧ r.ready = n + 2 ∧
        r.ap = cmd.p.ap ∧ r.tag = cmd.p.tag ∧ (∀ o : Chn, (chan t o).rows = (chan u o).rows) ∧ t.sram = u.sram) ∧
    (cmd.op = 0x2A → negBad u n cmd = none →
      ∃ t, step s = .next t ∧ (partOf t l p).live = (partOf u l p).live ∧ (∀ x, x ≠ p → partOf t l x = partOf u l x) ∧
        (singles u l p = [] → (partOf t l p).st = .steady ∧ t.replies = (replied 0x2A cmd.p cmd.id stOk 0 [] n u).replies) ∧
        (singles u l p ≠ [] → (partOf t l p).st = .washing ∧ (partOf t l p).cmd = some cmd ∧ t.replies = u.replies) ∧
        (∀ o : Chn, (chan t o).rows = (chan u o).rows) ∧ t.sram = u.sram))

/-- NEGATIVES MOVE: a phase commit makes the partitions' other negatives live in one CCLK, with the next stamp, and answers the command; a
fix time that ends begins the wash; a wash step of an entry in the live negative alone puts it into both (06 R155, R156, R158, R159,
R160). -/
def Obligations.NegativesMove : Prop :=
  ∀ (c l : Chn) (s : State), Calm s → l = leadOf s c → s.searches = [] →
    (∀ d : Pend, (chan s l).pends = [d] → d.tDue ≤ s.tb.t → d.cmd.wq = none →
      ∃ t, exec (.phaseCommit c) s = .next t ∧ (chan t l).pends = [] ∧ (chan t l).stamp = (chan s l).stamp + 1 ∧
        (∀ p < 64, d.mask.getLsbD p = true → (partOf t l p).live = !(partOf s l p).live ∧ (partOf t l p).st = .fixing ∧
          (partOf t l p).fixEnd = s.cclk + fixTime s l p ∧ (partOf t l p).last = some s.cclk) ∧
        (∀ p < 64, d.mask.getLsbD p = false → partOf t l p = partOf s l p) ∧
        t.replies = s.replies ++
          [{ ap := d.cmd.p.ap, op := d.cmd.op, status := stOk, tag := d.cmd.p.tag, info := BitVec.ofNat 24 ((chan s l).stamp + 1).toNat,
             pay := [], id := d.cmd.id, ready := s.cclk + 2, stamp := some (l, (chan s l).stamp + 1) }] ∧
        t.sram = s.sram ∧ t.regs = s.regs) ∧
    (∀ p : Fin 64, (partOf s l p).st = .fixing → s.cclk ≤ (partOf s l p).fixEnd → (partOf s l p).cmd = none →
      ∃ t, exec (.fixTimeEnd c p) s = .next t ∧ t.cclk = (partOf s l p).fixEnd ∧
        (partOf t l p).st = (if (singles s l p).isEmpty then .steady else .washing) ∧ (partOf t l p).live = (partOf s l p).live ∧
        (∀ o : Chn, (chan t o).rows = (chan s o).rows) ∧ t.replies = s.replies) ∧
    (∀ (p e pos : Nat) (k : BitVec 4) (w : Word), w = cfgOf s l p → groupOf s l = [l] → (chan s l).proof = none → (chan s l).corr = [] →
      posOf s l p (e / perBlock w) = some pos → (chan s l).parts = [(p, { (partOf s l p) with st := .washing })] →
      ∀ rest, singles s l p = (e, k) :: rest → entCtl s l w p e = k → bitAt k (if (partOf s l p).live then 1 else 2) = true →
      isActive s l = true → (chan s l).upd.job = none → (chan s l).upd.nextAt ≤ s.cclk → (partOf s l p).cmd = none →
      (∀ x ∈ (chan s l).cmps, x.1 ≠ s.cclk) →
      ∃ t, exec (.washStep c) s = .next t ∧ fld (entCtl t l w p e) 3 1 = 7 ∧
        (∀ b r, (rowAt (chan t l) b r).d = (rowAt (chan s l) b r).d ∧ (rowAt (chan t l) b r).m = (rowAt (chan s l) b r).m) ∧ t.sram = s.sram ∧
          t.regs = s.regs ∧ t.replies = s.replies)

/-- PART_CFG configures a partition: its words are stored and it has the blocks they name (03 R62). CH_QUIESCE drains a group and waits,
CH_RESUME lets it admit again from the next CCLK on (15 R383; 17 R416, R417), and CH_LOCK of quiesced channels without a copy puts the new
grouping in force at once (03 R83, R84, R86). The CCLK in which a reply is complete is the model's choice within Table 15.4's bound
(notes/assumptions/9.md). -/
def Obligations.GroupCommands : Prop :=
  (∀ (p : Pkt) (s : State) (k : Chn) (part : Nat) (w : Word), FwReady s → GoodHead 0x2B p → part < 64 →
    p.arg = BitVec.ofNat 24 (k.val * 2 ^ 6 + part) → p.pay = [w] → ownerBars s k part p.ap = false → fld w 14 0 = 0 →
    cfgBad s k w = false → isLead s k = true → (partOf s (leadOf s k) part).st = .steady →
    changeBad s k part (cfgOf s k part) w = none → cfgOn w = true → cfgOn (cfgOf s k part) = false →
    settlePipe s.cclk (takenIn p s) = takenIn p s →
    exec (.partCfg p) s = .next (afterwards (replied 0x2B p s.nextId stOk 0 [] s.cclk
      ((List.range (cfgBlocks w)).foldl (fun u i => placeBlock k part i u)
        (setPartReg k part 0 (w.extractLsb' 32 32) (setPartReg k part 4 (w.extractLsb' 0 32) (takenIn p s))))))) ∧
  (∀ (p : Pkt) (s : State) (c l : Chn), FwReady s → Settled s → p.pay = [] → p.arg = BitVec.ofNat 24 (c.val * 2 ^ 6) → l = leadOf s c →
     (GoodHead 0x58 p → (chan s l).quiesced = false →
       exec (.chQuiesce p) s = .next (afterwards (park (cmdOf 0x58 p s) (.quiesce l)
         (modChan l (fun k => { k with draining := true }) (takenIn p s))))) ∧
     (GoodHead 0x59 p →
       exec (.chResume p) s = .next (afterwards (replied 0x59 p s.nextId stOk 0 [] s.cclk
         (modChan l (fun k => { k with quiesced := false, openFrom := s.cclk + 1 }) (takenIn p s)))))) ∧
  (∀ (p : Pkt) (s : State), FwReady s → GoodHead 0x5A p → lockBad (cmdOf 0x5A p s) s = none → fld p.arg 0 0 = 0 →
     (∀ c : Chn, (chan s c).upd.job = none) →
     exec (.chLock p) s = .next (afterwards (replied 0x5A p s.nextId stOk 0 [] s.cclk (regroup (cmdOf 0x5A p s) (takenIn p s)))))

/-- BACKGROUND WORK ON THE ARRAY in an ACTIVE channel: a scrub read at its floor queues a correctable row for a corrective write, that
write restores the row in its block, a rebuild in slack recounts a block's contact sheet, and a CH_LOCK copy ends with the group in force
(02 R52; 03 R85, R86; 13 R321, R322; 11 R282). Where the scrubber begins and in which order it goes, that a rebuild's rows are read in
successive CCLKs, and that the copy ends exactly 90,112 CCLK after its command are the model's readings (notes/assumptions/76.md, 81.md,
50.md). -/
def Obligations.ArrayUpkeep : Prop :=
  ∀ (c : Chn) (s : State), Calm s → s.searches = [] → s.xpo.debits = [] → s.xpo.refAt = s.cclk → leadOf s c = c → isActive s c = true →
    (∀ b r, scrubNext (chan s c) = some (b, r, false) → r ≠ 8191 → (winOf s c).scrub < regF s 0x2002C 6 0 →
      ∃ t, exec (.scrubRead c) s = .next t ∧ t.cclk = s.cclk + 1 ∧ (chan t c).scrubAt = b * 8192 + r + 1 ∧
        (chan t c).rows = (chan s c).rows ∧ t.xpo.debits = [(s.cclk + 1, s.part.rowEu.toNat)] ∧
        mgetD t.stat (0x81000 + c.val * 8) 0 = mgetD s.stat (0x81000 + c.val * 8) 0 + 1 ∧
        ((decodeRow (rowAt (chan s c) b r)).2.1 = .correctable ∨ (decodeRow (rowAt (chan s c) b r)).2.2 = .correctable →
          ∃ y ∈ (chan t c).corr, y.blk = b ∧ y.row = r) ∧ t.sram = s.sram) ∧
    (∀ y, groupOf s c = [c] → (chan s c).corr = [y] → s.cclk ≤ (chan s c).upd.nextAt → y.row < 8192 →
      (∀ x ∈ (chan s c).cmps, x.1 ≠ (chan s c).upd.nextAt) →
      (∀ pos, posServed (chan s c) y.blk = some pos → writePhys (chan s c) pos = [y.blk]) →
      ∃ t, exec (.scrubCorrectiveWrite c) s = .next t ∧ t.cclk = (chan s c).upd.nextAt ∧ (chan t c).corr = [] ∧
        rowAt (chan t c) y.blk y.row = (decodeRow (rowAt (chan s c) y.blk y.row)).1 ∧
        (∀ b r, r < 8192 → (b, r) ≠ (y.blk, y.row) → rowAt (chan t c) b r = rowAt (chan s c) b r) ∧
        (chan t c).upd.nextAt = (chan s c).upd.nextAt + 2 ∧ t.sram = s.sram ∧ t.regs = s.regs) ∧
    (∀ b rest, (chan s c).rebuild = b :: rest → (chan s c).pendDec = [] → (chan s c).rebuildRow = 0 → steadySlack s c = true →
      ∃ t, exec (.sheetRebuild c) s = .next t ∧ t.cclk = s.cclk + 8192 ∧ (chan t c).rebuild = rest ∧ (chan t c).rows = (chan s c).rows ∧
        (∀ i < 64, mget (chan t c).sheet (b * 64 + i) = mget (recountOf s c b) (b * 64 + i)) ∧
        (∀ k, k / 64 ≠ b → mget (chan t c).sheet k = mget (chan s c).sheet k) ∧ t.sram = s.sram ∧ t.regs = s.regs) ∧
    (∀ x : LockCopy, (chan s c).copy = some x → (lockMs x.cmd).head? = some c → lockMd x.cmd = 1 ∨ lockMd x.cmd = 3 →
      (∀ m ∈ lockMs x.cmd, leadOf s m = m) → s.cclk ≤ x.start + 90112 → x.cmd.wq = none →
      ∃ t, exec (.chLockCopyEnd c) s = .next t ∧ t.cclk = x.start + 90112 ∧ (chan t c).copy = none ∧ (chan t c).rows = (chan s c).rows ∧
        (∀ m ∈ lockMs x.cmd, (chan t m).quiesced = true ∧ lockMode t m = lockMd x.cmd ∧ (chan t m).parts = (chan s c).parts ∧
          (m ≠ c → (chan t m).adm = (chan s c).adm.map fun y => (y.1, healWord y.2))) ∧
        (∀ y ∈ t.fw.parked, y.cmd.id ≠ x.cmd.id) ∧ t.sram = s.sram ∧
        t.replies = (replied x.cmd.op x.cmd.p x.cmd.id stOk 0 [] (x.start + 90112) s).replies)

/-- PROOF AND CALIBRATION PASSES AND BLOCK REPAIR (13 R328, R330-R332, R334, R335, R337-R339): a row operation copies a row or tests, at
one in 4 CCLK; searches are redirected and return in one CCLK; a pass ends with the block returned under its new trim or held; an
automatic pass starts on the next block of the rotation; a repair ends with the rows in the repair spare and an image saved. The CCLK of
each row operation, and the 32,768 CCLK of a repair's copies, are the model's readings (notes/assumptions/77.md, 79.md). -/
def Obligations.ProofPasses : Prop :=
  ∀ (c : Chn) (t5 : Fin 5) (s : State), Calm s → t5.val = c.val → s.searches = [] → s.xpo.debits = [] → s.xpo.refAt = s.cclk →
    isActive s c = true →
    (∀ (r : ProofRun) (ok : Bool), (chan s c).proof = some r → r.failed = none → (winOf s c).proof < regF s 0x20028 21 16 + 1 →
      (r.phase = 3 → r.op + 1 < 98304 →
        ∃ t, exec (.proofRowOp t5 ok) s = .next t ∧ t.cclk = s.cclk + 4 ∧
          (chan t c).proof = some (if ok then { r with op := r.op + 1 } else { r with failed := some 3 }) ∧
          (chan t c).rows = (chan s c).rows ∧ t.xpo.debits = [(s.cclk + 4, s.part.rowEu.toNat)] ∧ t.sram = s.sram ∧ t.regs = s.regs) ∧
      (r.phase = 1 → r.op + 1 < 8192 → ∀ x, mget (chan s c).rows (r.blk * 8192 + r.op) = some x →
        ∃ t, exec (.proofRowOp t5 ok) s = .next t ∧ t.cclk = s.cclk + 4 ∧ (chan t c).proof = some { r with op := r.op + 1 } ∧
          mget (chan t c).rows (proofSpare (chan s c) * 8192 + r.op) = some (decodeRow x).1 ∧
          (∀ k, k ≠ proofSpare (chan s c) * 8192 + r.op → mget (chan t c).rows k = mget (chan s c).rows k) ∧ t.sram = s.sram ∧
          t.regs = s.regs)) ∧
    (∀ r : ProofRun, (chan s c).proof = some r → r.phase = 2 →
      ∃ t, exec (.proofRedirect c) s = .next t ∧ t.cclk = s.cclk ∧
        (chan t c).proof = some { r with phase := if r.cal then 4 else 3, op := 0, redirected := true } ∧
        (∀ pos, basePhys (chan s c) pos = r.blk → servePhys (chan t c) pos = proofSpare (chan s c)) ∧
        (chan t c).rows = (chan s c).rows ∧ t.sram = s.sram ∧ t.regs = s.regs) ∧
    (∀ r : ProofRun, (chan s c).proof = some r → r.phase = 6 →
      ∃ t, exec (.proofReturn c) s = .next t ∧ t.cclk = s.cclk ∧ (chan t c).proof = some { r with phase := 7, redirected := false } ∧
        (∀ pos, basePhys (chan s c) pos = r.blk → (chan s c).heldBlk = none → servePhys (chan t c) pos = r.blk) ∧
        (∀ k, mget (chan t c).rows k = if k / 8192 = proofSpare (chan s c) then none else mget (chan s c).rows k) ∧ t.sram = s.sram ∧
        t.regs = s.regs) ∧
    (∀ (r : ProofRun) (trim : BitVec 6), (chan s c).proof = some r → r.phase = 7 ∨ r.failed ≠ none →
      ∃ t, exec (.proofPassEnd t5 trim) s = .next t ∧ t.cclk = s.cclk ∧ (chan t c).proof = none ∧
        (r.failed = none → mget (chan t c).trims r.blk = some trim.toNat ∧ (chan t c).heldBlk = (chan s c).heldBlk) ∧
        (r.failed ≠ none → (chan t c).heldBlk = some r.blk ∧ (chan t c).trims = (chan s c).trims) ∧
        (chan t c).rows = (chan s c).rows ∧ t.sram = s.sram ∧ t.regs = s.regs) ∧
    (regB s 0x82000 31 = true → proofFull s c = false → s.cclk ≤ (chan s c).nextAuto →
      ∃ t r, exec (.autoProofStart c) s = .next t ∧ t.cclk = (chan s c).nextAuto ∧ (chan t c).proof = some r ∧ r.blk = nextBlk s c ∧
        r.cal = false ∧ (chan t c).rot = ((chan s c).rot + 1) % 66 ∧
        (chan t c).nextAuto = t.cclk + regF s 0x82000 15 0 * 1000 * cclkPerUs s.part.grade ∧ (chan t c).rows = (chan s c).rows ∧
        t.sram = s.sram ∧ t.regs = s.regs) ∧
    (∀ (r : RepairRun) (src : Nat), (chan s c).repair = some r → src = (if r.pos = 65 then 65 else servePhys (chan s c) r.pos) → src ≠ 64 →
      s.cclk ≤ r.start + 32768 →
      ∃ t, exec (.blockRepairComplete c) s = .next t ∧ t.cclk = r.start + 32768 ∧ (chan t c).repair = none ∧
        (chan t c).repaired = some r.pos ∧ (chan t c).heldBlk = (if r.wasHeld then none else (chan s c).heldBlk) ∧
        (∀ i < 8192, mget (chan t c).rows (64 * 8192 + i) = (mget (chan s c).rows (src * 8192 + i)).map fun x => (decodeRow x).1) ∧
        (∀ k, k / 8192 ≠ 64 → k / 8192 ≠ src → mget (chan t c).rows k = mget (chan s c).rows k) ∧
        t.saves.length = s.saves.length + 1 ∧ t.sram = s.sram ∧ t.regs = s.regs)

/-- PROOF_START and CAL_START on the next block of the rotation, and REPAIR of a held block, are accepted (13 R328, R329, R334, R337);
REPAIR of an SRAM row waits for the row to be switched. The CCLK in which a reply is complete is the model's choice within Table 15.4's
bound (notes/assumptions/9.md). -/
def Obligations.ServicePasses : Prop :=
  (∀ (p : Pkt) (s : State) (c : Chn), FwReady s → p.pay = [] → p.arg = BitVec.ofNat 24 (c.val * 2 ^ 6) →
     (∀ (op : Byte) (i : Instr) (cal : Bool), (op = 0x5B ∧ i = .proofStart p ∧ cal = false ∨ op = 0x5C ∧ i = .calStart p ∧ cal = true) →
       GoodHead op p → proofFull s c = false →
       exec i s = .next (afterwards (replied op p s.nextId stOk (BitVec.ofNat 24 (Config.blockId c (nextBlk s c)).toNat) [] s.cclk
         (startNext cal c (takenIn p s))))) ∧
     (GoodHead 0x5D p → ∀ b, (chan s c).heldBlk = some b → repairUsed (chan s c) = false → s.sramProof = none →
       exec (.repairBlock p) s = .next (afterwards (replied 0x5D p s.nextId stOk 0 [] s.cclk
         (startRepair c (repairPos (chan s c) b) true (takenIn p s)))))) ∧
  (∀ (p : Pkt) (s : State) (a : Nat), FwReady s → GoodHead 0x5D p → a < 2 ^ 32 → p.arg = BitVec.ofNat 24 (2 * 2 ^ 22) →
     p.pay = [BitVec.ofNat 64 a] → memId (a / 8) ≠ none → memId (a / 8) ≠ some 9 → remapsUsed s (sramRow (a / 8)).1 < 32 → s.sramProof = none →
     spareBusy (chan s 0) = false →
     exec (.repairRowRemap p) s = .next (afterwards { takenIn p s with
       remapRun := s.remapRun ++ [⟨some (cmdOf 0x5D p s), (sramRow (a / 8)).1, (sramRow (a / 8)).2, a / 8 * 8⟩] }))

/-- THE INTERRUPT-HANDLER REGION IS NEVER LENT (17 R413): an SRAM proof pass whose pages, all of them lendable ones, cover a page of the
first 64 KiB of the active slot is refused with ST_DENIED, whatever the regions say. The CCLK in which the reply is complete is the
model's choice (notes/assumptions/9.md). -/
def Obligations.HandlerPagesKept : Prop :=
  ∀ (p : Pkt) (s : State) (a b h : Nat), FwReady s → GoodHead 0x5B p → p.arg = BitVec.ofNat 24 (2 ^ 23) → b < 2 ^ 20 →
    p.pay = [BitVec.ofNat 64 (a * 2 ^ 32 + b)] → a ≤ b → b ≤ a + 512 → (∀ g, a ≤ g → g ≤ b → lendable g = true) →
    h = (if s.fw.active then 0x1D00 else 0x1C00) → a ≤ h + 15 → h ≤ b →
    exec (.proofStart p) s = .next (afterwards (replied 0x5B p s.nextId stDenied 0 [] s.cclk
      (noteProofDenied ((List.range (min 513 (b + 1 - a))).map (a + ·)) (takenIn p s))))

/-- STREAM COMMANDS AND VISITS: STM_WR of a record writes its eight words, with the meter time of the CCLK in which slot C runs it; STM_RD
reads them; STM_CLR of the ledger clears it; a command that meets a CCLK of the background pass, or one behind a command that slot C runs
later, waits in slot C's queue; a sweep visit and a background visit of a record that is not valid move on by one handle (09
R212-R215, R229, R230). Where a command waits, and that a visit of a pass is one
record a row, are the model's choices (notes/assumptions/8.md, 67.md). -/
def Obligations.StreamRecords : Prop :=
  ∀ (p : Pkt) (s : State) (h n : Nat), Serving s → s.searches = [] → h < 2 ^ 18 → n = s.cclk →
    (s.se.free ≤ n → n % max 1 (regF s 0x60000 12 0) ≠ 0 → sleepers s [recWord h 0] = [] → p.arg = BitVec.ofNat 24 h →
      (GoodHead 0x30 p → p.pay.length = 8 → bitAt (payW (cmdOf 0x30 p s) 0) 0 = false → bitAt (payW (cmdOf 0x30 p s) 0) 58 = false →
        recBad s (payW (cmdOf 0x30 p s) 0) = false →
        exec (.stmWr p) s = .next (afterwards (replied 0x30 p s.nextId stOk 0 [] (n + 2)
          (writeMems (recWord h 0) (recF 2 63 40 (meterUnit s.tb.t) p.pay) (slotIn p s))))) ∧
      (GoodHead 0x31 p → p.pay = [] → ∀ ws : List Word, ws.length = 8 →
        (∀ k (b : k < ws.length), rawWord s (recWord h k) = some (encode ws[k])) →
        exec (.stmRd p) s = .next (afterwards (replied 0x31 p s.nextId stOk 0 ws (n + 2) (slotIn p s))))) ∧
    (s.se.free ≤ n → n % max 1 (regF s 0x60000 12 0) ≠ 0 → p.arg = BitVec.ofNat 24 (2 ^ 23 + h) → GoodHead 0x32 p → p.pay = [] → ∀ a b : Word,
      rawWord s (recWord h 6) = some (encode a) → rawWord s (recWord h 7) = some (encode b) →
      exec (.stmClr p) s = .next (afterwards (replied 0x32 p s.nextId stOk 0 [] (n + 2)
        (writeMem (recWord h 7) 0xff 0 (writeMem (recWord h 6) 0xff 0 (slotIn p s)))))) ∧
    (n < s.se.free ∨ n % max 1 (regF s 0x60000 12 0) = 0 → p.arg = BitVec.ofNat 24 h → ∀ (op : Byte) (i : Instr),
      (op = 0x30 ∧ i = .stmWr p ∨ op = 0x31 ∧ i = .stmRd p ∨ op = 0x32 ∧ i = .stmClr p) → GoodHead op p →
      exec i s = .next (afterwards { checkedIn p s with se := { s.se with queue := [cmdOf op p s], arb := s.se.arb.ask (cmdOf op p s) [] } })) ∧
    (s.wdNext = h → s.wdAt ≤ s.cclk → regB s 0x60008 31 = true → asleep s (recWord h 0) = false → rawWord s (recWord h 0) = some (encode 0) →
      ∃ t, exec .watchdogSweepVisit s = .next t ∧ t.cclk = s.cclk ∧ t.wdAt = s.cclk + 1 ∧ t.wdNext = wdAfter s h ∧ t.sram = s.sram ∧
        t.replies = s.replies ∧ t.regs = s.regs) ∧
    (s.bgNext = h → s.bgAt ≤ s.cclk → regF s 0x60000 12 0 ≠ 0 → s.cclk % regF s 0x60000 12 0 = 0 → asleep s (recWord h 0) = false →
      rawWord s (recWord h 0) = some (encode 0) →
      ∃ t, exec .backgroundVisit s = .next t ∧ t.cclk = s.cclk ∧ t.bgNext = (h + 1) % 2 ^ 18 ∧ t.bgAt = s.cclk + 1 ∧
        t.bgPass = s.bgPass + (if h + 1 = 2 ^ 18 then 1 else 0) ∧ t.sram = s.sram ∧ t.replies = s.replies ∧ t.regs = s.regs)

/-- Q_PUSH commits a work item, Q_POP takes words, Q_SKIP drops an item's rest, Q_FLUSH empties a queue (10 R243-R251). On a queue that
tells nothing of its depth they COMPLETE: Q_PUSH stores the item behind the last one, Q_POP gives the words at the head, Q_SKIP passes
over the rest of the item at the head, Q_FLUSH leaves the queue empty (10 R243, R246, R249-R251). A Q_POP runs once the reply store has
the slots for its reply, and waits until then (14 R347). The CCLK in which a reply is complete is the model's choice within Table 15.4's
bound (notes/assumptions/8.md). -/
def Obligations.QueueCommands : Prop :=
  (∀ (p : Pkt) (s s1 : State) (q : Nat), Serving s → s.qm.unit.free ≤ s.cclk → q < 2 ^ 18 → p.arg = BitVec.ofNat 24 q →
    (qDesc s q).enable = true → s1 = queueIn p s →
    (GoodHead 0x39 p → (qDesc s q).work = true → 2 ≤ p.pay.length → p.pay.length = fld (payW (cmdOf 0x39 p s) 0) 63 61 + 1 →
      workWordBad (payW (cmdOf 0x39 p s) 0) = false →
      workOpcodes.contains (BitVec.ofNat 8 (fld (payW (cmdOf 0x39 p s) 1) 63 56)) = true →
      fld (payW (cmdOf 0x39 p s) 1) 31 24 + 2 = p.pay.length → p.pay.length ≤ startRoom (qDesc s q) s.cclk →
      (∀ h ∈ s.qm.held, h.q.toNat ≠ q) →
      exec (.qPush p) s = .next (afterwards (settleTouched (replied 0x39 p s.nextId stOk
        (BitVec.ofNat 24 (depth (qDesc (commitItem q p.pay s.cclk s1) q))) [] s.cclk (commitItem q p.pay s.cclk s1))))) ∧
    (GoodHead 0x3A p → ¬ QueueRoomy 0x3A p s → exec (.qPop p) s = .next (afterwards (queueHeld 0x3A p s))) ∧
    (GoodHead 0x3A p → QueueRoomy 0x3A p s → (qDesc s q).work = false → ∀ (mx left : Nat) (vs : List Word) (u : State), mx < 256 →
      p.pay = [BitVec.ofNat 64 mx] →
      takeWords (qDesc s q) (min mx (visible (qDesc s q) s.cclk)) (qDesc s q).rd (qDesc s q).rdLeft s1 = (vs, false, left, u) →
      ∀ t, t = dropWords q (min mx (visible (qDesc s q) s.cclk)) left s.cclk u →
      exec (.qPop p) s = .next (afterwards (settleTouched (replied 0x3A p s.nextId stOk
        (BitVec.ofNat 24 (depth (qDesc t q) + (if nextHigh t (qDesc t q) then 2 ^ 17 else 0) + if (qDesc t q).spilled then 2 ^ 18 else 0))
        vs s.cclk t)))) ∧
    (GoodHead 0x3B p → (qDesc s q).work = false → p.pay = [] → (qDesc s q).rdLeft ≠ 0 → 0 < visible (qDesc s q) s.cclk →
      exec (.qSkip p) s = .next (afterwards (settleTouched (replied 0x3B p s.nextId stOk
        (BitVec.ofNat 24 (min (qDesc s q).rdLeft (visible (qDesc s q) s.cclk))) [] s.cclk
        (dropWords q (min (qDesc s q).rdLeft (visible (qDesc s q) s.cclk)) 0 s.cclk s1))))) ∧
    (GoodHead 0x3C p → p.pay = [] →
      exec (.qFlush p) s = .next (afterwards (settleTouched (replied 0x3C p s.nextId stOk (BitVec.ofNat 24 (depth (qDesc s q))) [] s.cclk
        (flushQ q s.cclk s1)))))) ∧
  (∀ (p : Pkt) (s : State) (q : Nat) (d : QDesc) (wh : Bool), Serving s → s.qm.unit.free ≤ s.cclk → q < 2 ^ 18 →
    p.arg = BitVec.ofNat 24 (q + if wh then 2 ^ 18 else 0) → qDesc s q = d → d.enable = true → d.wr < 2 ^ (d.k + 1) → d.rd < 2 ^ (d.k + 1) →
      2 ≤ d.k → d.k ≤ 16 → d.base + 2 ^ d.k ≤ 2 ^ 20 →
    getReg s (0x70108 + d.cls * 0x10) = 0 → d.cAt < s.cclk → d.pAt < s.cclk → depth d ≤ 2 ^ d.k →
    (wh = false → GoodHead 0x39 p → (∀ h ∈ s.qm.held, h.q.toNat ≠ q) → d.work = true → 2 ≤ p.pay.length →
      p.pay.length = fld (nth p.pay 0 0) 63 61 + 1 → workWordBad (nth p.pay 0 0) = false →
      workOpcodes.contains (BitVec.ofNat 8 (fld (nth p.pay 1 0) 63 56)) = true → fld (nth p.pay 1 0) 31 24 + 2 = p.pay.length →
      depth d + p.pay.length ≤ 2 ^ d.k →
      ∃ t, exec (.qPush p) s = .next t ∧ depth (qDesc t q) = depth d + p.pay.length ∧
        (∀ i w, p.pay[i]? = some w → rawWord t (qAddr d (d.wr + i)) = some (encode w)) ∧
        (∀ a, (∀ i < p.pay.length, a ≠ qAddr d (d.wr + i)) → rawWord t a = rawWord s a) ∧ t.regs = s.regs ∧
        t.replies = (replied 0x39 p s.nextId stOk (BitVec.ofNat 24 (depth d + p.pay.length)) [] s.cclk s).replies) ∧
    (GoodHead 0x3A p → QueueRoomy 0x3A p s → d.work = false → ∀ (mx n : Nat) (ws : List Word), mx < 256 → p.pay = [BitVec.ofNat 64 mx] →
      n = (if wh then wholeFit s d (depth d) mx 256 0 d.rdLeft else min mx (depth d)) →
      ws.length = n → (∀ i (h : i < ws.length), rawWord s (qAddr d (d.rd + i)) = some (encode ws[i])) →
      ∃ t info, exec (.qPop p) s = .next t ∧ depth (qDesc t q) = depth d - n ∧ t.sram = s.sram ∧ t.regs = s.regs ∧
        t.replies = (replied 0x3A p s.nextId stOk info ws s.cclk s).replies ∧ info.toNat % 2 ^ 17 = depth d - n ∧
        bitAt info 18 = d.spilled) ∧
    (wh = false → GoodHead 0x3B p → d.work = false → p.pay = [] → ∀ n : Nat,
      (d.rdLeft ≠ 0 ∧ n = min d.rdLeft (depth d) ∨
        d.rdLeft = 0 ∧ 0 < depth d ∧ (∃ w, rawWord s (qAddr d d.rd) = some (encode w) ∧ n = min (fld w 63 61 + 1) (depth d)) ∨
        depth d = 0 ∧ n = 0) →
      ∃ t, exec (.qSkip p) s = .next t ∧ depth (qDesc t q) = depth d - n ∧ t.sram = s.sram ∧ t.regs = s.regs ∧
        t.replies = (replied 0x3B p s.nextId stOk (BitVec.ofNat 24 n) [] s.cclk s).replies) ∧
    (wh = false → GoodHead 0x3C p → p.pay = [] → (∀ h ∈ s.qm.held, h.q.toNat ≠ q) → beingWritten s q s.cclk = false →
      ∃ t, exec (.qFlush p) s = .next t ∧ depth (qDesc t q) = 0 ∧ (qDesc t q).spilled = false ∧ t.sram = s.sram ∧ t.regs = s.regs ∧
        t.replies = (replied 0x3C p s.nextId stOk (BitVec.ofNat 24 (depth d)) [] s.cclk s).replies))

/-- Q_CFG configures a queue, and its read form gives descriptor and state, or zeros with ST_POISON where the descriptor is poisoned (10
R236-R238; 13 R316, Table 13.4); SPILL_POP takes whole records of the bank that is READY, once the reply store has the slots for its reply
(10 R259; 14 R347). The CCLK in which a reply is complete is the model's choice within Table 15.4's bound (notes/assumptions/8.md, 9.md).
-/
def Obligations.QueueConfigured : Prop :=
  (∀ (p : Pkt) (s : State) (q : Nat), FwReady s → GoodHead 0x38 p → q < 2 ^ 18 →
     (∀ w : Word, p.arg = BitVec.ofNat 24 q → p.pay = [w] → qCfgBad (cmdOf 0x38 p s) s = none → needsBg4 (cmdOf 0x38 p s) s = false →
       exec (.qCfg p) s = .next (afterwards (replied 0x38 p s.nextId stOk 0 [] s.cclk (writeDesc q (descOf w p.ap) (takenIn p s))))) ∧
     (p.arg = BitVec.ofNat 24 (q + 2 ^ 18) → p.pay = [] →
       ((qDesc s q).bad = false →
         exec (.qCfgRead p) s = .next (afterwards (replied 0x38 p s.nextId stOk 0 [descWord (qDesc s q), stateWord (qDesc s q)] s.cclk
           (takenIn p s)))) ∧
       ((qDesc s q).bad = true →
         exec (.qCfgRead p) s = .next (afterwards (replied 0x38 p s.nextId stPoison 0 [0, 0] s.cclk
           (metPoison 10 q q 0xff (takenIn p s))))))) ∧
  (∀ (p : Pkt) (s : State) (m k left : Nat) (ws : List Word), Serving s → s.qm.unit.free ≤ s.cclk → GoodHead 0x3D p → QueueRoomy 0x3D p s →
     p.arg = 0 → m < 256 →
     p.pay = [BitVec.ofNat 64 m] → s.qm.bankA.st = .ready → s.qm.bankB.st = .fill →
     k = 7 * min (m / 7) ((s.qm.bankA.words - s.qm.bankA.taken) / 7) → left = s.qm.bankA.words - s.qm.bankA.taken - k → ws.length = k →
     (∀ i (h : i < ws.length), rawWord s (spillBase + s.qm.bankA.taken + i) = some (encode ws[i])) →
     exec (.spillPop p) s = .next (afterwards (replied 0x3D p s.nextId stOk
       (BitVec.ofNat 24 (left + b2n (s.qm.bankB.words != 0) * 2 ^ 14 + b2n (left != 0) * 2 ^ 15)) ws s.cclk
       { queueIn p s with qm := { (queueIn p s).qm with
           bankA := if left = 0 then ⟨.empty, 0, 0⟩ else { s.qm.bankA with taken := s.qm.bankA.taken + k } } })))

/-- QUEUES: a staged event is committed in its queue's short form, or spills when the queue takes none; the spillway writes its record; a
held push is stored, or ends without room; the reply of a released command becomes an event; and a range of descriptors is written one
each CCLK (10 R238-R245, R251-R253, R257). An event committed into an empty queue drives the interrupt line that its class names, and one
that brings the queue to its high mark releases its sluice pin (10 R254-R256). Words 1 to 3 of that event, that a range writes one
descriptor a row, and the form of a record in the spillway are the model's readings (notes/assumptions/69.md, 70.md). -/
def Obligations.QueueEvents : Prop :=
  (∀ (s : State) (q : Nat) (d : QDesc), Calm s → s.searches = [] → q < 2 ^ 18 → qDesc s q = d → d.wr < 2 ^ (d.k + 1) → d.rd < 2 ^ (d.k + 1) →
    2 ≤ d.k →
    d.k ≤ 16 → d.base + 2 ^ d.k ≤ 2 ^ 20 → getReg s (0x70108 + d.cls * 0x10) = 0 → d.cAt < s.cclk → d.pAt < s.cclk → depth d ≤ 2 ^ d.k →
    (∀ x r n, s.qm.staged = x :: r → x.q.toNat = q → x.tries = 0 → d.enable = true → d.work = false → d.items = 1 →
      n = max (x.at_ + 1) s.qm.evFree → s.cclk ≤ n → depth d + 2 ≤ 2 ^ d.k →
      ∃ t, exec .eventCommit s = .next t ∧ t.cclk = n ∧ t.qm.staged = r ∧ depth (qDesc t q) = depth d + 2 ∧
        rawWord t (qAddr d d.wr) = (eventWords x.ev false d.spilled).head?.map encode ∧
        rawWord t (qAddr d (d.wr + 1)) = some (encode x.ev.w1) ∧ t.qm.evFree = n + 1) ∧
    (∀ x r, s.qm.staged = x :: r → x.q.toNat = q → x.tries = 0 → d.enable = false → s.qm.spill = [] → max (x.at_ + 1) s.qm.evFree ≤ s.cclk →
      ∃ t, exec .eventSpill s = .next t ∧ t.qm.staged = r ∧ t.qm.spill = [⟨x.ev, x.q, 1, s.cclk⟩] ∧ (qDesc t q).spilled = true ∧
        t.sram = s.sram) ∧
    (∀ x r, s.qm.spill = x :: r → fillIsA s.qm = true → s.qm.bankA.words + 7 ≤ 8192 → regB s 0x71000 30 = false →
      ∃ t, exec .spillwayWrite s = .next t ∧ t.qm.spill = r ∧ t.qm.bankA.words = s.qm.bankA.words + 7 ∧ t.qm.dropped = 0 ∧
        rawWord t (spillBase + s.qm.bankA.words + 2) = some (encode x.ev.w1) ∧ t.replies = s.replies) ∧
    (∀ h, s.qm.held = [h] → h.q = BitVec.ofNat 18 q → h.cmd.wq = none → depth d + h.item.length ≤ 2 ^ d.k → s.cclk ≤ h.due → d.enable = true →
      ∃ t, exec (.qPushHeldComplete h.q) s = .next t ∧ t.qm.held = [] ∧ depth (qDesc t q) = depth d + h.item.length ∧
        t.replies = (replied h.cmd.op h.cmd.p h.cmd.id stOk (BitVec.ofNat 24 (depth d + h.item.length)) [] s.cclk s).replies) ∧
    (∀ h, s.qm.held = [h] → h.q = BitVec.ofNat 18 q → h.cmd.wq = none → 2 ^ d.k < depth d + h.item.length → s.cclk ≤ h.due →
      ∃ t, exec (.qPushTimeout h.q) s = .next t ∧ t.qm.held = [] ∧ t.cclk = h.due ∧ t.sram = s.sram ∧
        t.replies = (replied h.cmd.op h.cmd.p h.cmd.id stQFullTimeout 0 [] h.due s).replies) ∧
    (∀ (r : Reply), s.qm.done = [(BitVec.ofNat 18 q, r)] → r.after = .nothing → r.ready ≤ s.cclk → s.qm.staged = [] →
      ∃ t e, exec (.workDone (BitVec.ofNat 18 q)) s = .next t ∧ t.qm.done = [] ∧ t.qm.staged.map (·.ev) = [e] ∧
        t.qm.staged.map (·.q) = [d.replyQ] ∧ e.type = 0x30 ∧ e.source = BitVec.ofNat 18 q ∧ e.w1 = nth (replyWords r) 0 0 ∧
        e.w2 = nth r.pay 0 0 ∧ e.w3 = nth r.pay 1 0 ∧ e.w4 = nth r.pay 2 0 ∧ e.t = s.tb.t) ∧
    (∀ (j : RangeJob), s.qm.range = some j → j.next = q → j.last = q → j.cmd.wq = none → d.enable = false → j.desc.enable = true →
      ∃ t, exec .rangeDescriptorWrite s = .next t ∧ t.cclk = s.cclk + 1 ∧ t.qm.range = none ∧
        qDesc t q = { j.desc with spilled := d.spilled } ∧
        t.replies = (replied j.cmd.op j.cmd.p j.cmd.id stOk 0 [] (s.cclk + 1) s).replies)) ∧
  (∀ (s : State) (q n : Nat) (d : QDesc) (x : Staged) (r : List Staged), Calm s → s.searches = [] → q < 2 ^ 18 → qDesc s q = d →
    d.wr < 2 ^ (d.k + 1) → d.rd = d.wr → d.k ≤ 16 → d.base + 2 ^ d.k ≤ 2 ^ 20 → d.cls < 16 → d.cAt < s.cclk → d.pAt < s.cclk →
    s.qm.staged = x :: r → x.q.toNat = q → x.tries = 0 → d.enable = true → d.work = false → d.items = 1 → 2 ≤ d.k →
    n = max (x.at_ + 1) s.qm.evFree → s.cclk ≤ n → regB s (0x70108 + d.cls * 0x10) 25 = false → regB s (0x70108 + d.cls * 0x10) 26 = false →
    ∃ t, exec .eventCommit s = .next t ∧ t.cclk = n ∧ depth (qDesc t q) = 2 ∧
      (∀ i : Fin 2, regB s (0x70108 + d.cls * 0x10) 30 = true → regF s (0x70108 + d.cls * 0x10) 28 27 = i.val + 1 → s.pins.vid ≠ none →
        regB t 0x7000C d.cls = true ∧ slowPin t (.irqN i) = .low) ∧
      (∀ g : Fin 8, d.slEn = true → d.sluice = g.val →
        max (2 ^ d.k - regF s (0x70100 + d.cls * 0x10) 15 0) (regF s (0x70104 + d.cls * 0x10) 15 0 + 1) ≤ 2 →
        (qDesc t q).high = true ∧ slowPin t (.sluiceN g) = .released))

/-- AN ITEM OF A WORK QUEUE IS RELEASED and its command acts as if the access point that configured the queue had sent it: a NEG_OPEN
opens the partition, and its reply waits for WORK_DONE (06 R155; 10 R252, R253). -/
def Obligations.WorkReleased : Prop :=
  ∀ (s : State) (q p : Nat) (c : Chn) (d : QDesc) (w0 h : Word), Serving s → q < 2 ^ 18 → p < 64 → qDesc s q = d → d.enable = true →
    d.work = true →
    d.wr < 2 ^ (d.k + 1) → d.rd < 2 ^ (d.k + 1) → d.k ≤ 16 → d.base + 2 ^ d.k ≤ 2 ^ 20 → getReg s (0x70108 + d.cls * 0x10) = 0 →
    d.cAt < s.cclk → 2 ≤ depth d → depth d ≤ 2 ^ d.k →
    s.qm.heads = [(q, none)] → mgetD s.qm.relAt q 0 ≤ s.cclk →
    rawWord s (qAddr d d.rd) = some (encode w0) → rawWord s (qAddr d (d.rd + 1)) = some (encode h) →
    w0 = pack 64 [(1, 63, 61), (2, 60, 59)] → h = pack 64 [(0x28, 63, 56), (c.val * 64 + p, 23, 0)] →
    leadOf s c = c → cfgOn (cfgOf s c p) = true → ownerBars s c p d.ap = false → (partOf s c p).st = .steady →
    washing s c = false → inCopy s c = false → (chan s c).resetting = none → (chan s c).upd.job = none → (chan s c).upd.takeAt ≤ s.cclk →
    s.qm.relAny ≤ s.cclk →
    ∃ t r, exec .workItemRelease s = .next t ∧ (partOf t c p).st = .opened ∧ t.qm.done = s.qm.done ++ [(BitVec.ofNat 18 q, r)] ∧
      r.status = stOk ∧ r.op = 0x28 ∧ r.id = s.nextId ∧ depth (qDesc t q) = depth d - 2 ∧ t.cclk = s.cclk ∧ t.replies = s.replies ∧
      t.sram = s.sram

/-- BUF_GET takes the head of LO, and of more than 128 bytes the next of it too, as one chain: the tags are set, the words read as never
written, or as the command fills them (12 R300-R302). BUF_WR writes words of a snippet, the last one too, and BUF_RD reads all of it (12
R303). BUF_SHARE adds a reference for each master named (12 R304), and BUF_RELEASE of a holder drops one: the last frees the buffer and
its chain; one that finds the buffer free is ignored, counted and told (12 R305). The CCLK in which a reply is complete is the model's
choice within Table 15.4's bound (notes/assumptions/8.md). -/
def Obligations.BufferCommands : Prop :=
  (∀ (p : Pkt) (s : State) (len next : Nat), Serving s → GoodHead 0x40 p → p.pay = [] → p.arg = BitVec.ofNat 24 len →
     1 ≤ len → len ≤ 128 → copiesDue s = [] → s.pool.rebuild = false → 0 < availLo s s.cclk →
     (s.pool.lo.n = 1 ∧ next = 0 ∨ 1 < s.pool.lo.n ∧ next < 2 ^ 15 ∧
       rawWord s (bufWord s.pool.lo.head 0) = some (encode (BitVec.ofNat 64 next))) →
     exec (.bufGet p) s = .next (afterwards (replied 0x40 p s.nextId stOk (BitVec.ofNat 24 s.pool.lo.head) [] s.cclk
       (addStat 0x320 1 (giveBuf s.pool.lo.head { count := 1, holders := BitVec.ofNat 16 (2 ^ p.ap.val), len := len, head := true }
         { poolIn p s with pool := { (poolIn p s).pool with lo := ⟨next, s.pool.lo.tail, s.pool.lo.n - 1⟩ } }))))) ∧
  (∀ (p : Pkt) (s : State) (len a b c : Nat) (fill two : Bool), Serving s → GoodHead 0x40 p → 1 ≤ len → len ≤ 256 → two = decide (128 < len) →
     p.arg = BitVec.ofNat 24 (len + if fill then 2 ^ 9 else 0) → p.pay.length = (if fill then lenWords len else 0) →
     (fill = true → tailClear len p.pay = true) → copiesDue s = [] → s.pool.rebuild = false → 2 ≤ availLo s s.cclk → 3 ≤ s.pool.lo.n →
     a = s.pool.lo.head → a < 2 ^ 14 → b < 2 ^ 14 → c < 2 ^ 14 → a ≠ b → rawWord s (bufWord a 0) = some (encode (BitVec.ofNat 64 b)) →
     rawWord s (bufWord b 0) = some (encode (BitVec.ofNat 64 c)) →
     ∃ t, exec (.bufGet p) s = .next t ∧
       (bufTag t a).count = 1 ∧ (bufTag t a).holders = BitVec.ofNat 16 (2 ^ p.ap.val) ∧ (bufTag t a).len = len ∧ (bufTag t a).head = true ∧
       (bufTag t a).chained = two ∧
       (two = true → (bufTag t a).next = BitVec.ofNat 15 b ∧ (bufTag t b).count = 1 ∧ (bufTag t b).holders = BitVec.ofNat 16 (2 ^ p.ap.val)) ∧
       (∀ d, d ≠ a → (two = true → d ≠ b) → bufTag t d = bufTag s d) ∧
       (∀ k < (if two then 32 else 16), rawWord t (snipWord t a k) = if fill then p.pay[k]?.map encode else none) ∧
       (∀ w, (∀ k < 16, w ≠ bufWord a k) → (two = true → ∀ k < 16, w ≠ bufWord b k) → rawWord t w = rawWord s w) ∧
       t.pool.lo = ⟨if two then c else b, s.pool.lo.tail, s.pool.lo.n - if two then 2 else 1⟩ ∧ t.pool.hi = s.pool.hi ∧ t.regs = s.regs ∧
       t.replies = (replied 0x40 p s.nextId stOk (BitVec.ofNat 24 a) [] s.cclk s).replies) ∧
  (∀ (p : Pkt) (s : State) (b first : Nat), Serving s → copiesDue s = [] → b < 2 ^ 15 → (bufTag s b).head = true →
     holds s b p.ap = true →
     (GoodHead 0x43 p → p.arg = BitVec.ofNat 24 (first * 2 ^ 15 + b) → p.pay ≠ [] → first + p.pay.length ≤ lenWords (bufTag s b).len →
       lenWords (bufTag s b).len ≤ 32 →
       (first + p.pay.length = lenWords (bufTag s b).len → tailClear (bufTag s b).len (List.replicate first 0 ++ p.pay) = true) →
       exec (.bufWr p) s = .next (afterwards (replied 0x43 p s.nextId stOk 0 [] s.cclk
         ((p.pay.zipIdx).foldl (fun u x => writeMem (snipWord u b (first + x.2)) 0xff x.1 u)
           (poolIn p s))))) ∧
     (GoodHead 0x44 p → p.arg = BitVec.ofNat 24 b → p.pay = [] → ∀ ws : List Word, ws.length = lenWords (bufTag s b).len →
       (∀ k (h : k < ws.length), rawWord s (snipWord s b k) = some (encode ws[k])) →
       exec (.bufRd p) s = .next (afterwards (replied 0x44 p s.nextId stOk (BitVec.ofNat 24 (bufTag s b).len) ws s.cclk
         (poolIn p s))))) ∧
  (∀ (p : Pkt) (s : State) (b : Nat), Serving s → copiesDue s = [] → p.arg = BitVec.ofNat 24 b → b < 2 ^ 15 →
     (bufTag s b).head = true → holds s b p.ap = true →
     (GoodHead 0x41 p → (∃ w : Word, p.pay = [w] ∧ 1 ≤ w.toNat ∧ w.toNat < 512 ∧
         (bufTag s b).count + (bitsOf (BitVec.ofNat 16 w.toNat)).length ≤ 255) →
       exec (.bufShare p) s = .next (afterwards (replied 0x41 p s.nextId stOk
         (BitVec.ofNat 24 ((bufTag s b).count + (bitsOf (BitVec.ofNat 16 (payW (cmdOf 0x41 p s) 0).toNat)).length)) [] s.cclk
         (putHead b { bufTag s b with
             count := (bufTag s b).count + (bitsOf (BitVec.ofNat 16 (payW (cmdOf 0x41 p s) 0).toNat)).length
             holders := (bufTag s b).holders ||| BitVec.ofNat 16 (payW (cmdOf 0x41 p s) 0).toNat }
           (poolIn p s))))) ∧
     (GoodHead 0x42 p → p.pay = [] → 1 ≤ (bufTag s b).count → (bufTag s b).walks ≠ (bufTag s b).count →
       exec (.bufRelease p) s = .next (afterwards (replied 0x42 p s.nextId stOk
         (BitVec.ofNat 24 ((bufTag s b).count - 1 + if (bufTag s b).count = 1 then 2 ^ 8 else 0)) [] s.cclk
         (dropRef b s.cclk (poolIn p s)))))) ∧
  (∀ (p : Pkt) (s : State) (b : Nat), Serving s → GoodHead 0x42 p → p.pay = [] → copiesDue s = [] → p.arg = BitVec.ofNat 24 b →
     b < 2 ^ 15 → (bufTag s b).count = 0 →
     exec (.bufRelease p) s = .next (afterwards (replied 0x42 p s.nextId stOk (BitVec.ofNat 24 (2 ^ 9)) [] s.cclk
       (postDev 10 { type := 0x39, source := BitVec.ofNat 18 b, w1 := BitVec.ofNat 64 p.ap }
         (bump 0x308 (poolIn p s))))))

/-- A WORD STORED WITH FRESH CODES READS AS WRITTEN; one wrong bit of a byte or of its code is corrected, and any two wrong bits of a byte
and its code are found (13 R311, R312, Table 13.2). -/
def Obligations.ByteCode : Prop :=
  (∀ v : Word, decodeWord (encode v) = (v, .correct, 0)) ∧
  ((∀ (d : Byte) (i : Fin 8), byteDecode (d ^^^ BitVec.ofNat 8 (2 ^ i.val)) (byteCode d) = (d, .correctable)) ∧
   (∀ (d : Byte) (i : Fin 5), byteDecode d (byteCode d ^^^ BitVec.ofNat 5 (2 ^ i.val)) = (d, .correctable)) ∧
   (∀ (d : Byte) (i j : Fin 13) (x : BitVec 13), i ≠ j → x = BitVec.ofNat 13 (2 ^ i.val) ^^^ BitVec.ofNat 13 (2 ^ j.val) →
     (byteDecode (d ^^^ x.extractLsb' 0 8) (byteCode d ^^^ x.extractLsb' 8 5)).2 = .poisoned))

/-- A WRITE OF A WHOLE WORD IS READ BACK, AND EVERY OTHER WORD STAYS (13 R312, R317; 12 Table 12.1). -/
def Obligations.WriteReadsBack : Prop :=
  ∀ (s : State) (w : Nat) (v : Word), w < retainBase →
    rawWord (writeMem w 0xff v s) w = some (encode v) ∧ ∀ w', w' ≠ w → rawWord (writeMem w 0xff v s) w' = rawWord s w'

/-- MEM_RD returns the words as written, when the reply store has slots for its reply, and waits in the firmware's queue until then;
MEM_WR writes the bytes enabled (12 R287, R288; 13 R317; 14 R347). The CCLKs that the accesses wait for the shared port are a free value
(notes/assumptions/102.md), and the CCLK in which a reply is complete is the model's choice (notes/assumptions/9.md). A DENIED ACCESS has
no effect: it is counted, recorded when none is, and the command replies ST_DENIED (12 R295). -/
def Obligations.MemReadWrite : Prop :=
  (∀ (p : Pkt) (s : State) (a n : Nat), FwReady s → p.arg = 0 → a < 2 ^ 32 → a % 8 = 0 → 1 ≤ n → n ≤ 255 →
     (∀ i < n, memId (a / 8 + i) ≠ none ∧ asleep s (a / 8 + i) = false ∧ lentWord s (a / 8 + i) = false) →
     (GoodHead 0x4A p → p.pay = [BitVec.ofNat 64 (n * 2 ^ 32 + a)] → (∀ i < n, rgnAllows s p.ap (pageOf (a / 8 + i)) false = true) →
       (¬ Roomy 0x4A p s → exec (.memRd p) s = .next (afterwards { takenIn p s with fw := { (takenIn p s).fw with queue := [cmdOf 0x4A p s] } })) ∧
       (∀ ws : List Word, Roomy 0x4A p s → ws.length = n → (∀ k < n, ∃ v, ws[k]? = some v ∧ rawWord s (a / 8 + k) = some (encode v)) →
         exec (.memRd p) s = .next (afterwards (replied 0x4A p s.nextId stOk 0 ws s.cclk (noteConflicts p.ap n (takenIn p s)))))) ∧
     (GoodHead 0x4B p → ∀ (be : Byte) (ws : List Word), be ≠ 0 → ws.length = n →
       p.pay = BitVec.ofNat 64 (be.toNat * 2 ^ 40 + a) :: ws →
       (∀ i < n, rgnAllows s p.ap (pageOf (a / 8 + i)) true = true ∧ memId (a / 8 + i) ≠ some 6 ∧ memId (a / 8 + i) ≠ some 9) →
       exec (.memWr p) s = .next (afterwards (replied 0x4B p s.nextId stOk 0 [] s.cclk
         (ws.zipIdx.foldl (fun u x => writeMem (a / 8 + x.2) be x.1 u)
           (noteConflicts p.ap n (holdGates (listsAt (memWords (cmdOf 0x4B p s))) (takenIn p s)))))))) ∧
  (∀ (p : Pkt) (s : State) (a : Nat), FwReady s → GoodHead 0x4A p → p.arg = 0 → a < 2 ^ 32 → a % 8 = 0 → memId (a / 8) ≠ none →
     p.pay = [BitVec.ofNat 64 (2 ^ 32 + a)] → rgnAllows s p.ap (pageOf (a / 8)) false = false →
     exec (.memRd p) s = .next (afterwards (replied 0x4A p s.nextId stDenied 0 [] s.cclk (noteDenied p.ap (a / 8) false (takenIn p s)))))

/-- MEM_RAW_RD gives the stored bits with the valid bit, MEM_RAW_WR stores bits as they are, neither with a code computed (13 R324, R325).
Of a TCAM row MEM_RAW_RD gives planes, control bits and check bits as stored; MEM_RAW_WR joins its group's update unit, and its write step
stores the row as given and no other (13 R325, Table 13.5). The CCLKs that accesses wait for the shared port are a free value
(notes/assumptions/102.md), and the CCLK in which a reply is complete is the model's choice within Table 15.4's bound
(notes/assumptions/9.md). -/
def Obligations.RawReadWrite : Prop :=
  (∀ (p : Pkt) (s : State) (a n : Nat), FwReady s → regB s 0x80000 31 = true → p.arg = 0 → a < 2 ^ 32 → a % 8 = 0 → 1 ≤ n → n ≤ 127 →
    (∀ i < n, memId (a / 8 + i) ≠ none ∧ asleep s (a / 8 + i) = false ∧ lentWord s (a / 8 + i) = false) →
    (GoodHead 0x4C p → Roomy 0x4C p s → p.pay = [BitVec.ofNat 64 (n * 2 ^ 32 + a)] →
      (∀ i < n, rgnAllows s p.ap (pageOf (a / 8 + i)) false = true) →
      exec (.memRawRd p) s = .next (afterwards (replied 0x4C p s.nextId stOk 0
        ((List.range n).flatMap fun i => match rawWord s (a / 8 + i) with | none => [0, 2 ^ 63] | some x => [x.data, x.chk.setWidth 64]) s.cclk
          (noteConflicts p.ap n (takenIn p s))))) ∧
    (GoodHead 0x4D p → ∀ l : List SWord, l.length = n → p.pay = BitVec.ofNat 64 a :: l.flatMap (fun x => [x.data, x.chk.setWidth 64]) →
      (∀ i < n, rgnAllows s p.ap (pageOf (a / 8 + i)) true = true ∧ memId (a / 8 + i) ≠ some 6 ∧ memId (a / 8 + i) ≠ some 9) →
      ∃ u, exec (.memRawWr p) s = .next (afterwards (replied 0x4D p s.nextId stOk 0 [] s.cclk u)) ∧
        (∀ i x, l[i]? = some x → rawWord u (a / 8 + i) = some x) ∧ (∀ w, (∀ i < n, w ≠ a / 8 + i) → rawWord u w = rawWord s w) ∧
        u.regs = s.regs ∧ u.replies = s.replies ∧ u.searches = (holdGates (listsAt (memWords (cmdOf 0x4D p s))) (takenIn p s)).searches ∧
        u.cclk = s.cclk ∧ ∀ c : Chn, chan u c = chan s c)) ∧
  (∀ (p : Pkt) (s : State) (c : Chn) (part e seg pos : Nat) (w : Word) (r : Row), FwReady s → regB s 0x80000 31 = true → p.arg = BitVec.ofNat 24 (2 ^ 22) →
    part < 64 → e < 2 ^ 20 → seg < 8 →
    (GoodHead 0x4C p → p.pay = [BitVec.ofNat 64 (c.val * 2 ^ 62 + part * 2 ^ 56 + e * 2 ^ 36 + seg * 2 ^ 33)] → w = cfgOf s c part →
      groupOf s c = [c] → isLead s c = true → ownerBars s c part p.ap = false → cfgOn w = true → e < cfgEntries w → seg < cfgG w →
      posOf s c part (e / perBlock w) = some pos → r = rowAt (chan s c) (servePhys (chan s c) pos) (rowOf w e + seg) →
      exec (.memRawRd p) s = .next (afterwards (replied 0x4C p s.nextId stOk 0
        [r.d.extractLsb' 0 64, (0 : BitVec 44) ++ r.ctl ++ r.d.extractLsb' 64 16, r.m.extractLsb' 0 64, (0 : BitVec 48) ++ r.m.extractLsb' 64 16,
         (0 : BitVec 48) ++ r.cd ++ r.cm] s.cclk (takenIn p s)))) ∧
    (GoodHead 0x4D p → payW (cmdOf 0x4D p s) 0 = BitVec.ofNat 64 (c.val * 2 ^ 62 + part * 2 ^ 56 + e * 2 ^ 36 + seg * 2 ^ 33) →
      exec (.memRawWr p) s = .next (afterwards (modUpd (leadOf s c)
        (fun u => { u with queue := [cmdOf 0x4D p s], arb := u.arb.ask (cmdOf 0x4D p s) [] }) (takenIn p s))))) ∧
  (∀ (c l : Chn) (s : State) (cmd : Cmd) (p e pos seg : Nat) (w : Word) (row : Row), Calm s → Settled s → l = leadOf s c → groupOf s l = [l] →
    w = cfgOf s l p → cfgSlice w = false → posOf s l p (e / perBlock w) = some pos → (chan s l).proof = none → (chan s l).corr = [] →
    (chan s l).upd.job = some { cmd := cmd, steps := [.raw p e seg row], entry := 0 } → (chan s l).upd.nextAt ≤ s.cclk →
    stepFree s l (.raw p e seg row) s.cclk = true → isActive s l = true → cmd.wq = none → cmd.op = 0x4D → seg < cfgG w →
    rowOf w e + cfgG w ≤ 8192 →
    ∃ t, exec (.writeStep c) s = .next t ∧
      (∀ b r, r < 8192 → rowAt (chan t l) b r = if b = servePhys (chan s l) pos ∧ r = rowOf w e + seg then row else rowAt (chan s l) b r) ∧
      (∀ o : Chn, (o ≠ l → (chan t o).rows = (chan s o).rows) ∧ (chan t o).adm = (chan s o).adm ∧ (chan t o).prio = (chan s o).prio) ∧
      (chan t l).upd.job = none ∧ t.replies = (replied 0x4D cmd.p cmd.id stOk 0 [] (s.cclk + 2) s).replies ∧ t.sram = s.sram ∧
      t.regs = s.regs ∧ t.cclk = s.cclk)

/-- UPKEEP OF THE SRAM AND THE POOL: a heal rewrites a correctable word, an access to a lent page is answered within 2,500 CCLK with
ST_LENT, a row remap moves a row with its words corrected and has an image saved, and the free lists are threaded anew from the tags (12
R308; 13 R318, R336, R338, R339). -/
def Obligations.MemoryUpkeep : Prop :=
  ∀ s : State, Calm s →
    (∀ (w : Nat) (rest : List Nat) (x : SWord), s.healQ = w :: rest → w < 0x1000000 → asleep s w = false → mget s.sram w = some x →
      ∃ t, exec .healWrite s = .next t ∧ t.healQ = rest ∧
        mget t.sram w = some (if (decodeWord x).2.1 = .correctable then healWord x else x) ∧
        (∀ v, v ≠ w → mget t.sram v = mget s.sram v) ∧ t.regs = s.regs ∧ t.cclk = s.cclk ∧
        ∀ c : Chn, (chan t c).rows = (chan s c).rows) ∧
    (∀ (c : Cmd) (w : Nat) (v : Word) (p : SramProof), s.searches = [] → s.lentWait = [c] → s.sramProof = some p → p.attempts < 3 → c.wq = none →
      c.op = 0x4A → c.p.arg = 0 → w < 2 ^ 29 → c.p.pay = [BitVec.ofNat 64 (2 ^ 32 + 8 * w)] → memId w ≠ none → asleep s w = false →
      rgnAllows s c.p.ap (pageOf w) false = true → rawWord s w = some (encode v) →
      ∃ t, exec .lentPageAccess s = .next t ∧ s.cclk ≤ t.cclk ∧ t.cclk ≤ s.cclk + 2500 ∧ t.lentWait = [] ∧
        t.sramProof = some { p with attempts := p.attempts + 1 } ∧
        t.replies = (replied c.op c.p c.id stLent 0 [v] t.cclk s).replies ∧ t.sram = s.sram ∧ t.regs = s.regs) ∧
    (∀ (c : Cmd) (m row loc : Nat) (rest : List RemapRun), s.remapRun = ⟨some c, m, row, loc⟩ :: rest → 8 ≤ m → c.wq = none →
      s.searches = [] →
      ∃ t, exec .rowRemap s = .next t ∧ t.remapRun = rest ∧ t.remaps = s.remaps ++ [(m, row)] ∧ t.saves.length = s.saves.length + 1 ∧
        (∀ w, mget t.sram w = if w / 128 = row then (mget s.sram w).map healWord else mget s.sram w) ∧ t.cclk = s.cclk ∧ t.regs = s.regs ∧
        t.replies = (replied c.op c.p c.id stOk 0 [] s.cclk s).replies) ∧
    (s.pool.rebuild = true →
      ∃ t, exec .freeListRebuild s = .next t ∧ t.pool.rebuild = false ∧ t.pool.tags = s.pool.tags ∧
        t.pool.lo.n = ((List.range 16384).filter fun b => bufFree s b).length ∧
        t.pool.hi.n = ((List.range 16384).filter fun b => bufFree s (16384 + b)).length ∧
        (∀ b < 16384, bufFree s b = true → (∀ a < b, bufFree s a = false) → t.pool.lo.head = b) ∧
        (∀ w, w < poolBase ∨ ralemBase ≤ w → mget t.sram w = mget s.sram w) ∧ t.regs = s.regs ∧ t.cclk = s.cclk)

/-- THE MAILBOX (12 R294, R297-R299): accesses that the regions allow are made one in a CCLK, a write stores the bytes it includes, a read
is answered with the word, a denied command is answered with ST_DENIED. Where the two sides meet in one word in a CCLK, two writes that
agree in the bytes they share both land; of two that differ in one, side A's lands and side B's is lost, side B is told; a read that meets
a write is answered with an open value, and the access checked later, side B's where both were checked together, is told. The reply's time
and the CCLKs counted against the shared port are the model's choices (notes/assumptions/9.md, 15.md, 102.md). -/
def Obligations.MailboxAccess : Prop :=
  ∀ s : State, Calm s → bgMode s 6 = 0 → s.sramProof = none →
    (∀ x : MbxAcc, x.n = 1 → mbxBarred s x = none →
      (x.who = .window → x.write = true →
        exec (.mailboxWindowAccess x []) s = .next (afterwards
          (writeMem (mboxBase + x.word.toNat) x.be (nth x.data 0 0) (noteConflicts x.m.val 1 s)))) ∧
      (∀ (v : Word) (t : BitVec 14), x.who = .mem t → x.write = false → x.be = 0xff → rawWord s (mboxBase + x.word.toNat) = some (encode v) →
        exec (.mailboxWindowAccess x []) s = .next (afterwards (replied 0x4A { ap := x.m, tag := t } s.nextId stOk 0 [v] s.cclk
          (checkedIn { ap := x.m, tag := t } (noteConflicts x.m.val 1 s)))))) ∧
    (∀ (x : MbxAcc) (t : BitVec 14), mbxBarred s x = none → x.who = .mem t → x.write = true → 1 ≤ x.n → x.data.length = x.n →
      x.word.toNat + x.n ≤ 32768 → s.searches = [] → s.ring.east.st ≠ .up → s.ring.west.st ≠ .up →
      ∃ u, exec (.mailboxWindowAccess x []) s = .next u ∧ u.cclk = s.cclk + (x.n - 1) ∧
        (∀ k < x.n, rawWord u (mboxBase + x.word.toNat + k) = some (writeLanes (rawWord s (mboxBase + x.word.toNat + k)) x.be (nth x.data k 0))) ∧
        (∀ w, (∀ k < x.n, w ≠ mboxBase + x.word.toNat + k) → rawWord u w = rawWord s w) ∧
        u.replies = (replied 0x4B { ap := x.m, tag := t } s.nextId stOk 0 [] (s.cclk + (x.n - 1)) s).replies) ∧
    (∀ (x : MbxAcc) (w : Nat) (t : BitVec 14), x.who = .mem t → mbxBarred s x = some w →
      exec (.mailboxWindowAccess x []) s = .next (afterwards (replied (if x.write then 0x4B else 0x4A) { ap := x.m, tag := t } s.nextId stDenied 0 []
        s.cclk (checkedIn { ap := x.m, tag := t } (noteDenied x.m w x.write s))))) ∧
    (∀ (a b : MbxAcc) (w : Nat), a.who = .window → a.n = 1 → b.n = 1 → a.sideB = false → b.sideB = true → a.write = true → a.word = b.word →
      w = mboxBase + a.word.toNat → mbxBarred s a = none → mbxBarred s b = none → s.searches = [] →
      (b.who = .window → b.write = true → (∃ i < 8, a.be.getLsbD i = true ∧ b.be.getLsbD i = true ∧ lane (nth a.data 0 0) i ≠ lane (nth b.data 0 0) i) →
        satOf s 0x20C = false →
        ∃ t, exec (.mailboxWindowAccess a [b]) s = .next t ∧ rawWord t w = some (writeLanes (rawWord s w) a.be (nth a.data 0 0)) ∧
          (∀ x, x ≠ w → rawWord t x = rawWord s x) ∧ regB t 0x200 30 = true ∧ regF t 0x200 14 0 = a.word.toNat ∧
          getCnt t 0x20C = getCnt s 0x20C + 1 ∧ t.mbx = { s.mbx with busyB := some (s.cclk + busyTime s.part.grade) } ∧ t.replies = s.replies ∧
          t.cclk = s.cclk) ∧
      (b.who = .window → b.write = true → (∀ i < 8, a.be.getLsbD i = true → b.be.getLsbD i = true → lane (nth a.data 0 0) i = lane (nth b.data 0 0) i) →
        ∃ t, exec (.mailboxWindowAccess a [b]) s = .next t ∧
          rawWord t w = some (writeLanes (some (writeLanes (rawWord s w) a.be (nth a.data 0 0))) b.be (nth b.data 0 0)) ∧
          (∀ x, x ≠ w → rawWord t x = rawWord s x) ∧ t.mbx = s.mbx ∧ t.regs = s.regs ∧ t.replies = s.replies ∧ t.cclk = s.cclk) ∧
      (∀ tag : BitVec 14, b.who = .mem tag → b.write = false → b.be = 0xff → a.be ≠ 0 →
        ∃ t r, exec (.mailboxWindowAccess a [b]) s = .next t ∧ rawWord t w = some (writeLanes (rawWord s w) a.be (nth a.data 0 0)) ∧
          (∀ x, x ≠ w → rawWord t x = rawWord s x) ∧ t.replies = s.replies ++ [r] ∧ r.op = 0x4A ∧ r.ap = b.m ∧ r.tag = tag ∧ r.pay.length = 1 ∧
          (a.checked ≤ b.checked → r.status = stCollide ∧ regB t 0x200 30 = true ∧
            t.mbx = { s.mbx with busyB := some (s.cclk + busyTime s.part.grade) }) ∧
          (b.checked < a.checked → r.status = stOk ∧ regB t 0x200 31 = true ∧
            t.mbx = { s.mbx with busyA := some (s.cclk + busyTime s.part.grade) }) ∧
          regF t 0x200 14 0 = a.word.toNat ∧ t.cclk = s.cclk)) ∧
    (∀ (sideB : Bool) (due : Nat), s.searches = [] → (if sideB then s.mbx.busyB else s.mbx.busyA) = some due → s.cclk ≤ due →
      ∃ t, exec (.mbxbsyPulseEnd sideB) s = .next t ∧ t.cclk = due ∧
        t.mbx = (if sideB then { s.mbx with busyB := none } else { s.mbx with busyA := none }) ∧ t.sram = s.sram ∧ t.regs = s.regs)

/-- MGMT_RD gives the register in the upper half of a word, and MGMT_WR writes it (15 R381, R382). INFO returns the two words of Table
15.6 (15 R380); a packet with an opcode that Table 15.4 does not list is refused with ST_BADOPC (15 R370). The CCLK in which a reply is
complete is the model's choice within Table 15.4's bound (notes/assumptions/8.md, 9.md). -/
def Obligations.MgmtReadWrite : Prop :=
  (∀ (p : Pkt) (s : State) (a : Nat) (i : RegInfo), FwReady s → Settled s → p.arg = 0 → a < 2 ^ 32 → mbxAddr a = false →
    regInfo s.part.grade a = some i → i.kind = .fields → a ≠ 0x10020 → ¬(0x48000 ≤ a ∧ a < 0x48100) →
    (GoodHead 0x48 p → p.pay = [BitVec.ofNat 64 a] →
      exec (.mgmtRd p) s = .next (afterwards (replied 0x48 p s.nextId stOk 0
        [regValue (settleHold (takenIn p s)) p.ap a i ++ (0 : BitVec 32)] s.cclk (settleHold (takenIn p s))))) ∧
    (GoodHead 0x49 p → ∀ (v : Reg) (u : State), p.pay = [BitVec.ofNat 64 a, v ++ (0 : BitVec 32)] → a ≠ 0x3000C →
      regWrite .mgmt p.ap a v (takenIn p s) = (stOk, u) → Calm u → u.fw.parked = [] → u.cclk = s.cclk →
      exec (.mgmtWr p) s = .next (afterwards (replied 0x49 p s.nextId stOk 0 [] s.cclk u)))) ∧
  (∀ (p : Pkt) (s : State), FwReady s → GoodHead 0x02 p → Plain p →
     exec (.info p) s = .next (afterwards (replied 0x02 p s.nextId stOk 0
       [devIdReg s ++ fwVersion s ++ (if s.fw.active then (1 : BitVec 8) else 0) ++ (1 : BitVec 8),
        BitVec.ofNat 4 p.ap ++ BitVec.ofNat 2 (authOf s p.ap) ++ (if s.dev.developed then (0 : BitVec 1) else 1) ++ (0 : BitVec 57)]
       s.cclk (takenIn p s)))) ∧
  (∀ (p : Pkt) (s : State) (op : Byte), Serving s → op ∉ opcodes →
     exec (.unlistedOpcode op p) s = .next (afterwards (replied op p s.nextId stBadOpc 0 [] s.cclk (checkedIn p s))))

/-- A WRITE OF A REGISTER OF FIELDS that its rules accept leaves its RW bits as written and its W1C bits cleared by ones, every other bit
as it was, and every other register unchanged (00 R5; 01 R28, R29): search profiles, templates, and time-base registers but TB_CTL. -/
def Obligations.RegisterWritten : Prop :=
  ∀ (a v : Reg) (s : State) (x : RegInfo) (i : Instr), Calm s → Settled s → regInfo s.part.grade a.toNat = some x → Accepted a.toNat v s →
    (i = .registerWrite a v ∧ (a.toNat / 0x10000 = 1 ∧ a.toNat ≠ 0x10000 ∨ a.toNat / 0x10000 = 5 ∧ (a.toNat < 0x51000 ∨ 0x51040 ≤ a.toNat) ∨
        a.toNat / 0x10000 = 9) ∨
      i = .profCtlWrite a v ∧ a.toNat / 0x10000 = 9 ∨ i = .kbTplWrite a v ∧ a.toNat / 0x10000 = 5 ∧ a.toNat < 0x51000) →
    ∃ t, exec i s = .next t ∧ getReg t a.toNat = ((getReg s a.toNat &&& ~~~x.rw) ||| (v &&& x.rw)) &&& ~~~(x.w1c &&& v) ∧
      (∀ b, b ≠ a.toNat → getReg t b = getReg s b) ∧ t.sram = s.sram ∧ t.replies = s.replies ∧ t.cnt = s.cnt ∧ t.searches = s.searches ∧
      t.cclk = s.cclk

/-- REGISTERS WHOSE WRITE DOES MORE than store bits: port classes, the sweep range, the background divider, gate headers, provisioning,
bank groups, VID adaptation, stamps, and `rebuild`, which has no further effect while a rebuild runs (02 R52, R58; 04 R98; 06 R167; 09
R220, R229, R230; 11 R281; 16 R394; 18 R441). -/
def Obligations.RegisterEffects : Prop :=
  (∀ (v : Reg) (s : State), Calm s → Settled s →
     (∀ k : Fin 16, Accepted (0x51000 + 4 * k.val) v s →
       ∃ t, exec (.kbPclsWrite k v) s = .next t ∧ getReg t (0x51000 + 4 * k.val) &&& (ones 31 31 ||| ones 28 20) = v &&& (ones 31 31 ||| ones 28 20) ∧
         (∀ b, b ≠ 0x51000 + 4 * k.val → getReg t b = getReg s b) ∧ t.sram = s.sram) ∧
     (∀ last : Bool, Accepted (if last then 0x6000C else 0x60008) v s →
       ∃ t, exec (.seWdRangeWrite last v) s = .next t ∧ regF t (if last then 0x6000C else 0x60008) 17 0 = fld v 17 0 ∧
         (last = true → t.wdNext = regF s 0x60008 17 0 ∧ t.wdAt = s.cclk + 1) ∧ (last = false → t.wdNext = fld v 17 0 ∧ t.wdAt = s.cclk + 1) ∧
         t.sram = s.sram) ∧
     (Accepted 0x60000 v s → ∃ t, exec (.bgDivWrite v) s = .next t ∧ regF t 0x60000 12 0 = fld v 12 0 ∧
       (fld v 12 0 ≠ regF s 0x60000 12 0 → t.bgAt = s.cclk + 1) ∧ t.sram = s.sram) ∧
     (∀ n : Fin 1024, Accepted (0x64000 + 4 * n.val) v s →
       ∃ t, exec (.seGclHdrWrite n v) s = .next t ∧ regB t (0x64000 + 4 * n.val) 31 = bitAt v 31 ∧
         regF t (0x64000 + 4 * n.val) 30 27 = fld v 30 27 ∧ t.sram = s.sram) ∧
     (Accepted 0x3000C v s → ∃ t, exec (.protProvision v) s = .next t ∧ regF t 0x30000 8 0 = fld v 8 0 ∧ regF t 0x30004 8 0 = fld v 24 16 ∧
       factoryState t = false ∧ t.saves.length = s.saves.length + 1 ∧ t.sram = s.sram) ∧
     (Accepted 0x20140 v s → ∃ t, exec (.pwrBgCtlWrite v) s = .next t ∧ regF t 0x20140 13 0 = fld v 13 0 ∧
       (∀ g < 7, fld v (2 * g + 1) (2 * g) ≠ 0 → bgMode t g = fld v (2 * g + 1) (2 * g)) ∧
       ((∀ g < 7, fld v (2 * g + 1) (2 * g) ≠ 2) → t.sram = s.sram)) ∧
     (Accepted 0x20150 v s → ∃ t, exec (.avsEnWrite v) s = .next t ∧ regB t 0x20150 31 = bitAt v 31 ∧ t.pins = s.pins ∧ t.sram = s.sram) ∧
     (∀ c : Chn, Accepted (chAddr c 0x5104) v s →
       ∃ t, exec (.stampWrite c v) s = .next t ∧ (chan t (leadOf t c)).stamp = v.setWidth 8 ∧ t.sram = s.sram) ∧
     (∀ c : Chn, (chan s c).rebuildBusy = false → Accepted (chAddr c 0x2000) (putB (getReg s (chAddr c 0x2000)) 1 true) s →
       ∃ t, exec (.rebuild c) s = .next t ∧ (chan t c).rebuildBusy = true ∧
         (chan t c).rebuild = ((List.range 64).map (servePhys (chan s c))).eraseDups ∧ (chan t c).rows = (chan s c).rows ∧ t.sram = s.sram)) ∧
  (∀ (c : Chn) (s : State), Calm s → Settled s → (chan s c).rebuildBusy = true →
     Accepted (chAddr c 0x2000) (putB (getReg s (chAddr c 0x2000)) 1 true) s →
     ∃ t, exec (.rebuild c) s = .next t ∧ (chan t c).rebuildBusy = true ∧ (chan t c).rebuild = (chan s c).rebuild ∧
       (chan t c).rows = (chan s c).rows ∧ (chan t c).sheet = (chan s c).sheet ∧ t.cclk = s.cclk ∧ t.sram = s.sram)

/-- WRITES THAT MOVE A PORT OR THE RING: `enable` trains a group or takes it down, `retrain` drains it, enabling the rings begins them
anew, `ring_en` joins or leaves the cascade ring, and `rejoin` sends the fences, or has a part that reaches nobody serve alone (07 R170,
R184; 14 R353, R354, R363). What enabling the rings resets, the host's index and `fetch_err` among it, is the model's reading
(notes/assumptions/44.md). -/
def Obligations.LinkWrites : Prop :=
  ∀ (v : Reg) (s : State), Calm s → Settled s →
    (∀ g : Fin 8, Accepted (pgReg g 0) v s → bitAt v 29 = false →
      ∃ t, exec (.pgEnableWrite g v) s = .next t ∧ regB t (pgReg g 0) 31 = bitAt v 31 ∧
        (bitAt v 31 = false → regB s (pgReg g 0) 31 = true → t.pg[g].st = .down) ∧
        (bitAt v 31 = true → regB s (pgReg g 0) 31 = false → s.pg[g].st = .down → t.pg[g].st = .train) ∧ t.sram = s.sram) ∧
    (∀ g : Fin 8, Accepted (pgReg g 0) (putB v 29 true) s → s.pg[g].st = .up → bitAt v 31 = regB s (pgReg g 0) 31 →
      ∃ t, exec (.retrain g v) s = .next t ∧ t.pg[g].st = .drain ∧ t.pg[g].next = some (bitAt v 30, getReg s (pgReg g 4)) ∧ t.sram = s.sram) ∧
    (Accepted 0x4A010 v s → regB s 0x4A010 31 = false → bitAt v 31 = true →
      ∃ t, exec (.pcieRingCtlWrite v) s = .next t ∧ t.pcie.sqHead = 0 ∧ t.pcie.sqTail = 0 ∧ t.pcie.cqHead = 0 ∧ t.pcie.cqW = 0 ∧
        t.pcie.phase = true ∧ t.pcie.fetchErr = false ∧ regB t 0x4A010 31 = true ∧ t.sram = s.sram) ∧
    (Accepted 0x4C000 v s → bitAt v 30 = false →
      ∃ t, exec (.ringEnWrite v) s = .next t ∧ regB t 0x4C000 31 = bitAt v 31 ∧
        (bitAt v 31 = true → regB s 0x4C000 31 = false → t.ring.st = (if s.pins.aliveLow then .joining else .forming)) ∧
        (bitAt v 31 = false → regB s 0x4C000 31 = true → t.ring.st = .off) ∧ t.sram = s.sram) ∧
    (Accepted 0x4C000 (putB (getReg s 0x4C000) 30 true) s → s.ring.st = .joining → s.ring.wait = [] →
      (s.ring.east.st = .up ∨ s.ring.west.st = .up →
        ∃ t, exec .rejoin s = .next t ∧ t.ring.st = .joining ∧ t.ring.east.fence = true ∧ t.ring.west.fence = true ∧ t.sram = s.sram) ∧
      (s.ring.east.st ≠ .up → s.ring.west.st ≠ .up →
        ∃ t, exec .rejoin s = .next t ∧ t.ring.live = ownBit s ∧ t.ring.st = (if ownBit s = ringMembers s then .formed else .wrapped) ∧
          t.ring.east.wrapped = true ∧ t.ring.west.wrapped = true ∧ t.sram = s.sram))

/-- A WRITE THAT WOULD CHANGE A CS FIELD changes no register but the refusal record of its block (01 R28, R443; 16 R392). AN ACCESS of the
PCIe window to an address that is neither a register nor a mailbox word COMPLETES: a read gives zero, a write is discarded, either is
counted, and nothing else of the registers and memories changes (01 R29; 00 R10). -/
def Obligations.RegisterRefused : Prop :=
  (∀ (a v : Reg) (s : State), Calm s →
    (∀ x : RegInfo, regInfo s.part.grade a.toNat = some x → x.kind = .fields → getReg s a.toNat &&& x.cs ≠ v &&& x.cs →
      exec (.registerWrite a v) s = .next (afterwards (recordRefusal a.toNat 0 s))) ∧
    (mapped s a.toNat = false →
      exec (.pcieUnmappedAccess true a) s = .next (afterwards (bump 0x4A020 s)) ∧
      exec (.pcieUnmappedAccess false a) s = .next (afterwards
        { bump 0x4A020 s with pcie := { s.pcie with rdata := s.pcie.rdata ++ [0] } }))) ∧
  (∀ (write : Bool) (a : Reg) (s : State), Calm s → mapped s a.toNat = false →
    ∃ t, exec (.pcieUnmappedAccess write a) s = .next t ∧ t.pcie.rdata = s.pcie.rdata ++ (if write then [] else [0]) ∧
      getCnt t 0x4A020 = (if getCnt s 0x4A020 = BitVec.allOnes 32 then BitVec.allOnes 32 else getCnt s 0x4A020 + 1) ∧
      (∀ b, b ≠ 0x4A020 → b ≠ 0x71008 → getCnt t b = getCnt s b) ∧ t.regs = s.regs ∧ t.sram = s.sram ∧ t.replies = s.replies ∧
      t.searches = s.searches ∧ t.cclk = s.cclk ∧ ∀ c : Chn, (chan t c).rows = (chan s c).rows)

/-- READS WITH AN EFFECT: the low word of a statistics counter latches the high word for its reader, the clear-on-read view of an anomaly
counter gives its value and clears it, and TB_SNAP_NS latches T (00 R9, R10; 01 R30; 08 R206). -/
def Obligations.RegisterReads : Prop :=
  ∀ (m : Ap) (a : Reg) (s : State) (x : RegInfo), Calm s → Settled s → regInfo s.part.grade a.toNat = some x →
    (x.kind = .statLo → ¬ (0x48000 ≤ a.toNat ∧ a.toNat < 0x48100) →
      ∃ t, exec (.counterLowRead m a) s = .next t ∧
        mget t.shadow (m.val * 2 ^ 32 + a.toNat) = some ((mgetD s.stat a.toNat 0 >>> 32).setWidth 32) ∧
        (m = 8 → t.pcie.rdata = s.pcie.rdata ++ [((mgetD s.stat a.toNat 0).setWidth 32).setWidth 64]) ∧ t.regs = s.regs ∧ t.cnt = s.cnt ∧
        t.sram = s.sram) ∧
    (∀ b, x.kind = .rc b →
      ∃ t, exec (.clearOnRead m a) s = .next t ∧ getCnt t b = 0 ∧ (∀ k, k ≠ b → getCnt t k = getCnt s k) ∧
        (m = 8 → t.pcie.rdata = s.pcie.rdata ++ [(getCnt s b).setWidth 64]) ∧ t.regs = s.regs ∧ t.sram = s.sram) ∧
    (getReg s 0x10020 = 0 → ∃ t, exec (.tbSnapNsRead m) s = .next t ∧ mget t.tb.snap m.val = some s.tb.t ∧
      (m = 8 → t.pcie.rdata = s.pcie.rdata ++ [(BitVec.ofNat 32 (tNs s.tb.t)).setWidth 64]) ∧ t.regs = s.regs ∧ t.sram = s.sram ∧
      t.tb.t = s.tb.t)

/-- XPO_SET sets the five budget registers at once, and CH_STATE the rest state of the groups named (11 R277, R284). The CCLK in which a
reply is complete, and the refusal of reserved bits of XPO_SET, are the model's choices (notes/assumptions/9.md, 74.md). -/
def Obligations.PowerCommands : Prop :=
  ∀ (p : Pkt) (s : State), FwReady s → Settled s →
    (GoodHead 0x50 p → p.arg = 0 → ∀ arr env burst resv hold : Reg,
      p.pay = [arr ++ env, burst ++ resv, hold ++ (0 : BitVec 32)] → hold &&& ~~~(ones 29 16 ||| ones 9 0) = 0 →
      xpoBad arr.toNat env.toNat burst.toNat resv.toNat hold.toNat = false →
      exec (.xpoSet p) s = .next (afterwards (replied 0x50 p s.nextId stOk 0 [] s.cclk
        (setEff (setReg 0x20000 arr (setReg 0x20004 env (setReg 0x20008 burst (setReg 0x2000C resv (setReg 0x20010 hold
          (takenIn p s)))))))))) ∧
    (GoodHead 0x51 p → ∀ (rest mask : Nat), rest < 4 → 1 ≤ mask → mask < 16 → p.pay = [] → p.arg = BitVec.ofNat 24 (mask * 2 ^ 8 + rest) →
      (2 ≤ rest → ∀ m ∈ namedChans s mask, regB s (chAddr m 0x6000) 31 = false) →
      exec (.chState p) s = .next (afterwards (replied 0x51 p s.nextId stOk (BitVec.ofNat 24 (stateInfo s)) [] s.cclk
        ((namedChans s mask).foldl (fun u m => putRest rest m u) (takenIn p s))))) ∧
    (GoodHead 0x51 p → p.pay = [] → p.arg = BitVec.ofNat 24 (2 ^ 23) → regB s 0x4C000 31 = false →
      (∀ m : Chn, regB s (chAddr m 0x6000) 31 = false) →
      ∃ u, exec (.chStateDeviceDarkroom p) s = .next (afterwards u) ∧ u.dev.darkReq = some (cmdOf 0x51 p s) ∧
        u.fw.parked = [⟨cmdOf 0x51 p s, .darkroom⟩] ∧ u.replies = s.replies ∧
        (∀ m : Chn, regF u (chAddr m 0x6000) 29 28 = 3) ∧ u.sram = s.sram)

/-- THE EXPOSURE BALANCE: it is refilled every CCLK up to its cap, a debit takes its cost in its CCLK and counts it, a balance below the
deficit threshold is noted, and the non-array estimate stays within its bound (11 R263, R264, R267). -/
def Obligations.ExposureBalance : Prop :=
  ∀ s : State, Calm s → s.searches = [] → s.xpo.deficit = false →
    (s.xpo.debits = [] → s.xpo.refAt < s.cclk →
      ∃ t, exec .exposureRefill s = .next t ∧ t.xpo.refAt = s.cclk ∧ t.xpo.deficit = false ∧
        t.xpo.bal = min (regF s 0x20008 23 0 : Int) (s.xpo.bal + ((s.cclk - s.xpo.refAt) * refillEu s : Nat)) ∧ t.regs = s.regs ∧
        t.cclk = s.cclk ∧ t.sram = s.sram) ∧
    (∀ (d e : Nat) (b : Int), s.xpo.debits = [(d, e)] → s.cclk ≤ d → s.xpo.refAt < d →
      b = min (regF s 0x20008 23 0 : Int) (s.xpo.bal + ((d - s.xpo.refAt) * refillEu s : Nat)) - (e : Nat) →
      ∃ t, exec .exposureDebit s = .next t ∧ t.cclk = d ∧ t.xpo.debits = [] ∧ t.xpo.bal = max b (-(2 ^ 31)) ∧
        t.xpo.expRem = (s.xpo.expRem + e) % 65536 ∧
        mgetD t.stat 0x20030 0 = mgetD s.stat 0x20030 0 + BitVec.ofNat 64 ((s.xpo.expRem + e) / 65536) ∧
        (t.xpo.deficit = true ↔ b < -(regF s 0x20014 23 0 : Int)) ∧ t.regs = s.regs ∧ t.sram = s.sram) ∧
    (s.xpo.debits = [] →
      ∃ t, exec .otherMwRecompute s = .next t ∧ t.xpo.otherMw ≤ (match s.part.grade with | .g12 => 45000 | .g10 => 32000) ∧
        t.xpo.effMw = min (regF s 0x20000 16 0) (regF s 0x20004 16 0 - t.xpo.otherMw) ∧
        t.xpo.bal = (if s.xpo.refAt < s.cclk then min (regF s 0x20008 23 0 : Int) (s.xpo.bal + ((s.cclk - s.xpo.refAt) * refillEu s : Nat))
          else s.xpo.bal) ∧ t.regs = s.regs ∧ t.cclk = s.cclk ∧ t.sram = s.sram)

/-- CHANNEL POWER STATES: an idle ACTIVE group begins to enter SAFELIGHT when its timer ends, an entry ends in its state, a wake ends in
ACTIVE, and a pre-exposure window opens and closes (11 R273, R274, R278). The channel leads its group. -/
def Obligations.PowerStates : Prop :=
  ∀ (c : Chn) (s : State) (p : Pwr), Calm s → s.searches = [] → leadOf s c = c → (chan s c).pwr = p →
    (p.st = .active → p.entering = none → p.waking = none → p.atOnce = false → holdBits s c = (false, false, false, false) →
      1 ≤ regF s (chAddr c 0x6000) 29 28 → s.cclk ≤ p.since + (regF s (chAddr c 0x6000) 15 0 - p.idle) →
      ∃ t, exec (.idleTimerExpiry c) s = .next t ∧ t.cclk = p.since + (regF s (chAddr c 0x6000) 15 0 - p.idle) ∧
        (chan t c).pwr.st = .active ∧ (chan t c).pwr.entering = some (.safelight, t.cclk + 1, 0) ∧ (chan t c).rows = (chan s c).rows ∧
        t.regs = s.regs ∧ t.sram = s.sram) ∧
    (∀ (x : PwrSt) (due cause : Nat), p.entering = some (x, due, cause) → s.cclk ≤ due →
      ∃ t, exec (.stateEntryComplete c) s = .next t ∧ t.cclk = due ∧ (chan t c).pwr.st = x ∧ (chan t c).pwr.entering = none ∧
        (chan t c).rows = (chan s c).rows ∧ t.regs = s.regs ∧ t.sram = s.sram) ∧
    (∀ (x : PwrSt) (due cause : Nat), p.waking = some (x, due, cause) → s.cclk ≤ due →
      ∃ t, exec (.channelWakeComplete c) s = .next t ∧ t.cclk = due ∧ (chan t c).pwr.st = .active ∧ (chan t c).pwr.waking = none ∧
        (chan t c).rows = (chan s c).rows ∧ t.regs = s.regs ∧ t.sram = s.sram) ∧
    (∀ w : Fin 4, p.open4.getLsbD w = false → windowOn s c w = true →
      ∃ t, exec (.preExposureWindowOpen c w) s = .next t ∧
        (∀ v : Fin 4, (chan t c).pwr.open4.getLsbD v = windowNow t c v) ∧
        t.cclk = (if windowNow s c w then s.cclk
          else cclkOfTime (crossDue s (windowCyg s c w) (BitVec.ofNat 32 (regF s (chAddr c (0x6014 + w * 8)) 31 16 * 2 ^ 16)) s.tb.t) s) ∧
        t.regs = s.regs ∧ t.sram = s.sram) ∧
    (∀ w : Fin 4, p.open4.getLsbD w = true →
      ∃ t, exec (.preExposureWindowClose c w) s = .next t ∧
        (∀ v : Fin 4, (chan t c).pwr.open4.getLsbD v = windowNow t c v) ∧
        t.cclk = (if windowNow s c w
          then cclkOfTime (crossDue s (windowCyg s c w) (BitVec.ofNat 32 (regF s (chAddr c (0x6014 + w * 8)) 15 0 * 2 ^ 16)) s.tb.t) s
          else s.cclk) ∧ t.regs = s.regs ∧ t.sram = s.sram)

/-- DEVICE DARKROOM AND SUPPLIES: the entry answers the command, an enabled source wakes the part, it serves again with a full balance, a
bank group wakes, and the VID code moves one step, 10 us after the last at the earliest, or is driven when VDDIO has risen (11 R279-R281;
18 R427, R441). The part serves again with the LFCLK edge that starts T, which sets one of `unset` and `coarse` (08 R199): that the two
come together, and that the other is cleared, are the model's readings (notes/assumptions/96.md). -/
def Obligations.DeviceDarkroom : Prop :=
  ∀ s : State,
    (∀ cmd : Cmd, Calm s → s.dev.darkReq = some cmd → cmd.wq = none → darkReady s = true →
      ∃ t r, exec .darkroomEntry s = .next t ∧ t.dev.darkReq = none ∧ t.replies = [r] ∧ r.status = stOk ∧ r.after = .stopClock ∧
        r.info = BitVec.ofNat 24 (stateInfo s) ∧ r.ap = cmd.p.ap ∧ r.tag = cmd.p.tag ∧ (∀ x ∈ t.fw.parked, x.cmd.id ≠ cmd.id) ∧ t.regs = s.regs ∧
        t.sram = s.sram ∧ t.cclk = s.cclk) ∧
    (∀ w : WakeSrc, s.dev.st = .darkroom → regB s 0x20130 (28 + wakeBit w) = true → (w = .alarm → regF s 0x20130 23 0 ≠ 0) →
      exec (.darkroomWake w) s = .next { s with
        dev := { s.dev with st := .waking, wakeSrc := BitVec.ofNat 4 (2 ^ wakeBit w) }, pins := { s.pins with arrRet := false } }) ∧
    (s.dev.st = .waking → Calm { s with dev := { s.dev with st := .run } } →
      ∃ t, exec .darkroomExitComplete s = .next t ∧ t.dev = { s.dev with st := .run } ∧ t.tb.wait = false ∧
        t.tb.t = (s.aon.coarse + 131072000000000) % timeRange ∧ t.tb.unset = !s.aon.cLoaded ∧ t.tb.coarse = s.aon.cLoaded ∧
        t.xpo.bal = (regF s 0x20008 23 0 : Int) ∧ t.xpo.deficit = false ∧ t.cclk = s.cclk ∧ t.regs = s.regs ∧ t.sram = s.sram) ∧
    (∀ (g : Fin 7) (due : Nat), Calm s → s.searches = [] → s.bgWait = [⟨g.val, due, none⟩] → s.cclk ≤ due →
      ∃ t, exec (.bankGroupWakeComplete g) s = .next t ∧ t.cclk = due ∧ bgMode t g.val = 0 ∧
        (∀ h, h ≠ g.val → bgMode t h = bgMode s h) ∧ t.bgWait = [] ∧ t.regs = s.regs ∧ t.sram = s.sram) ∧
    (∀ (v want w : BitVec 5), Calm s → s.searches = [] → s.pins.vid = some v → want ≤ 28 → w = (if regB s 0x20150 31 then want else s.part.vid) →
      ∃ t, exec (.avsStep want) s = .next t ∧
        t.pins = { s.pins with vid := some (if v < w then v + 1 else if w < v then v - 1 else v) } ∧
        t.dev = { s.dev with vidAt := max s.cclk s.dev.vidAt + 10 * cclkPerUs s.part.grade } ∧ t.cclk = max s.cclk s.dev.vidAt ∧
        t.regs = s.regs ∧ t.sram = s.sram) ∧
    (Calm s → s.pins.vid = none → ∃ t, exec .vddioRise s = .next t ∧ t.pins = { s.pins with vid := some s.part.vid } ∧ t.regs = s.regs ∧
      t.sram = s.sram ∧ t.cclk = s.cclk)

/-- TEMPERATURE: a sample sets the level by the highest reading, a rise alerts, at 125 degrees every clock but LFCLK stops, and each
window of 1,024 CCLK counts from zero (11 R269, R271, R272, R282; 18 R434). What of the part stays visible in shutdown is the model's
reading (notes/assumptions/72.md, 75.md). -/
def Obligations.Temperature : Prop :=
  ∀ (x : Temps) (s : State), Calm s →
    (s.searches = [] → ∀ hard warn h : Nat, hard = regF s 0x20100 23 16 → warn = regF s 0x20100 15 8 → h = regF s 0x20100 3 0 →
      ∃ t, exec (.thermalSample x) s = .next t ∧ t.dev.temps = [x.t0, x.t1, x.t2, x.t3, x.t4, x.t5] ∧
        ((4 * hard : Nat) ≤ hottest x → t.dev.level = 2) ∧
        (s.dev.level = 0 → hottest x < (4 * hard : Nat) → (4 * warn : Nat) ≤ hottest x → t.dev.level = 1) ∧
        (hottest x < (4 * warn : Nat) - (4 * h : Nat) → hottest x < (4 * hard : Nat) - (4 * h : Nat) → t.dev.level = 0) ∧
        t.pins = { s.pins with alertLow := s.pins.alertLow || decide (s.dev.level.toNat < t.dev.level.toNat) } ∧
        t.dev.st = .run ∧ t.regs = s.regs ∧ t.sram = s.sram ∧ t.cclk = s.cclk) ∧
    (500 ≤ hottest x →
      ∃ t, exec (.thermalShutdown x) s = .next t ∧ t.dev = { s.dev with st := .shutdown, temps := [x.t0, x.t1, x.t2, x.t3, x.t4, x.t5] } ∧
        t.aon = { s.aon with shut := true } ∧ t.pins = { s.pins with thermLow := true, arrRet := true, alertLow := true, aliveLow := aliveAfter s .off } ∧ t.mbx = {} ∧
        (∀ g : Fin 8, t.pg[g] = { s.pg[g] with st := .down }) ∧ t.pcie.up = false ∧ t.ring.east.st = .down ∧ t.ring.west.st = .down ∧
        t.ch = s.ch ∧ t.regs = s.regs ∧ t.sram = s.sram ∧ t.cclk = s.cclk) ∧
    (s.searches = [] → ∃ t, exec .gFloorWindow s = .next t ∧ t.cclk = (s.cclk / 1024 + 1) * 1024 ∧
      (∀ c : Chn, (chan t c).win = { no := s.cclk / 1024 + 1 } ∧ (chan t c).rows = (chan s c).rows) ∧ t.regs = s.regs ∧ t.sram = s.sram)

/-- TIME_SET sets T in one CCLK, or waits for an edge of PPS_IN (08 R190, R193, R196). TIME_ADJ sets the rate, steps T, or starts a slew
(08 R191). The CCLK in which a reply is complete, and that a TIME_SET which waits is parked, are the model's choices
(notes/assumptions/9.md, 85.md). -/
def Obligations.TimeSteered : Prop :=
  (∀ (p : Pkt) (s : State) (sec : Nat) (ns frac : Reg), FwReady s → GoodHead 0x52 p → sec < 2 ^ 48 → ns.toNat < 1000000000 →
     p.pay = [BitVec.ofNat 64 sec, ns ++ frac] → s.tb.setPend = none → pendingAny s = false →
     (p.arg = 0 → ∃ u, exec (.timeSet p) s = .next (afterwards u) ∧ u.tb.t = tOf sec ns.toNat frac.toNat ∧ u.tb.wait = false ∧
       u.tb.slewLeft = 0 ∧ u.tb.unset = false ∧ u.tb.coarse = false ∧ u.regs = s.regs ∧ u.sram = s.sram ∧ u.ch = s.ch ∧ u.cclk = s.cclk ∧
       u.replies = (replied 0x52 p s.nextId stOk 0 [] s.cclk s).replies) ∧
     (p.arg = 1 → s.tb.ppsLost = false →
       exec (.timeSetAtPps p) s = .next (afterwards { takenIn p s with
         tb := { s.tb with setPend := some ⟨cmdOf 0x52 p s, tOf sec ns.toNat frac.toNat, s.tb.t + 11 * secU / 10⟩ }
         fw := { (takenIn p s).fw with parked := [⟨cmdOf 0x52 p s, .timeSet⟩] } }))) ∧
  (∀ (p : Pkt) (s : State) (v : Word), FwReady s → GoodHead 0x53 p → p.pay = [v] →
     (p.arg = 0 → v.toInt.natAbs ≤ 1099511627 →
       exec (.timeAdjRate p) s = .next (afterwards (replied 0x53 p s.nextId stOk 0 [] s.cclk
         (newLine (setReg 0x1000C (BitVec.ofInt 32 v.toInt) (takenIn p s)))))) ∧
     (p.arg = 1 → 0 ≤ (s.tb.t : Int) + v.toInt * (nsU : Nat) → (s.tb.t : Int) + v.toInt * (nsU : Nat) < (timeRange : Nat) →
       pendingAny s = false →
       ∃ u, exec (.timeAdjStep p) s = .next (afterwards u) ∧ (u.tb.t : Int) = s.tb.t + v.toInt * (nsU : Nat) ∧ u.regs = s.regs ∧
         u.sram = s.sram ∧ u.ch = s.ch ∧ u.replies = (replied 0x53 p s.nextId stOk 0 [] s.cclk s).replies) ∧
     (p.arg = 2 → v.toInt.natAbs ≤ 10000000 →
       exec (.timeAdjSlew p) s = .next (afterwards (replied 0x53 p s.nextId stOk 0 [] s.cclk
         (newLine { takenIn p s with tb := { s.tb with slewLeft := v.toInt * (nsU : Nat) } })))))

/-- CYG_CFG gives a generator its period and anchor, or disables it; T stays (08 R201). The CCLK in which its reply is complete is the
model's choice within Table 15.4's bound (notes/assumptions/9.md). -/
def Obligations.GeneratorConfigured : Prop :=
  ∀ (p : Pkt) (s : State) (n : Nat), FwReady s → Settled s → GoodHead 0x54 p → n < 16 → pendingOn s n = false →
    (∀ (per ns lo : Reg) (hi : BitVec 16), p.arg = BitVec.ofNat 24 n → p.pay = [per ++ ns, (0 : BitVec 16) ++ hi ++ lo] →
      1000 ≤ per.toNat → ns.toNat < 1000000000 →
      ∃ u, exec (.cygCfg p) s = .next (afterwards u) ∧ cygOn u n = true ∧ cygPeriod u n = per.toNat * 2 ^ 32 ∧
        cygAnchor u n = tOf (hi.toNat * 2 ^ 32 + lo.toNat) ns.toNat 0 ∧ u.tb.t = s.tb.t ∧ u.sram = s.sram ∧
        u.replies = (replied 0x54 p s.nextId stOk 0 [] s.cclk s).replies) ∧
    (p.arg = BitVec.ofNat 24 (n + 16) → p.pay = [] →
      ∃ u, exec (.cygCfgOff p) s = .next (afterwards u) ∧ cygOn u n = false ∧ u.tb.t = s.tb.t ∧ u.sram = s.sram ∧
        u.replies = (replied 0x54 p s.nextId stOk 0 [] s.cclk s).replies)

/-- THE TIME BASE: a slew ends, an edge of PPS_IN is captured, its loss is noted and counted, PPS_OUT rises and falls, an edge of LFCLK
records T or starts it, and a TIME_SET that waits in vain ends (08 R191, R194-R199). That of `unset` and `coarse` one is set and the other
cleared, and that T past its range wraps, are the model's readings (notes/assumptions/95.md, 96.md). -/
def Obligations.TimeBaseEvents : Prop :=
  ∀ s : State, Calm s → s.searches = [] → s.tb.wait = false →
    (s.tb.slewLeft ≠ 0 → ∃ t, exec .slewEnd s = .next t ∧ t.tb.slewLeft = 0 ∧
      t.cclk = s.cclk + (s.tb.slewLeft.natAbs + slewStep s.part.grade - 1) / slewStep s.part.grade ∧ t.regs = s.regs ∧ t.sram = s.sram) ∧
    (regB s 0x10000 31 = true → regB s 0x10000 30 = false → s.tb.setPend = none → s.tb.lastPps = none →
      ∃ t, exec .ppsInEdge s = .next t ∧ t.tb.lastPps = some s.tb.t ∧ t.tb.ppsLost = false ∧ t.tb.ppsSeq = s.tb.ppsSeq + 1 ∧
        (regF s 0x10010 15 0 * nsU ≤ s.tb.t → s.tb.t < timeRange → t.tb.cap = s.tb.t - regF s 0x10010 15 0 * nsU) ∧ t.tb.t = s.tb.t ∧
        t.regs = s.regs) ∧
    (regB s 0x10000 31 = true → s.tb.ppsLost = false → s.tb.setPend = none → satOf s 0x10048 = false →
      ∃ t, exec .ppsLoss s = .next t ∧ t.tb.ppsLost = true ∧ getCnt t 0x10048 = getCnt s 0x10048 + 1 ∧
        t.cclk = cclkOfTime (s.tb.ppsRef + 11 * secU / 10) s ∧ t.regs = s.regs) ∧
    (regB s 0x10000 29 = true → regF s 0x10000 28 24 = 0 →
      ∃ t, exec .ppsOutBoundary s = .next t ∧ t.tb.ppsOutEnd = some (t.tb.t + min (regF s 0x10014 19 0 * 1000 * nsU) (secU / 2)) ∧
        t.regs = s.regs) ∧
    (∀ e, s.tb.ppsOutEnd = some e → ∃ t, exec .ppsOutPulseEnd s = .next t ∧ t.tb.ppsOutEnd = none ∧ t.cclk = cclkOfTime e s ∧
      t.regs = s.regs) ∧
    (exec .lfclkEdge s = .next (afterwards { s with aon := { s.aon with coarse := s.tb.t, cLoaded := true } })) ∧
    (∃ t, exec .lfclkEdge { s with tb := { s.tb with wait := true } } = .next t ∧ t.tb.wait = false ∧
      t.tb.t = (s.aon.coarse + 131072000000000) % timeRange ∧ t.aon.coarse = t.tb.t ∧ t.tb.unset = !s.aon.cLoaded ∧
      t.tb.coarse = s.aon.cLoaded) ∧
    (∀ x, s.tb.setPend = some x → x.cmd.wq = none →
      ∃ t, exec .setPendingTimeout s = .next t ∧ t.tb.setPend = none ∧ t.cclk = cclkOfTime x.limit s ∧
        t.replies = (replied x.cmd.op x.cmd.p x.cmd.id stTimeout 0 [] t.cclk s).replies)

/-- CELLS OF THE CASCADE RING (07 R170, R174-R177, R181, R182, R184; 14 R356, R357): another's key cell is passed on and searched, a
result cell that waits takes this member's results and goes on, the origin answers with the merged results, a late cell is dropped and
counted, a formation cell is passed on with this part's entry, forming ends after 50 us, a lost neighbour wraps the port, a ring-change
cell that says something new is adopted, a fence goes round, is noted by its part and the members it meets, and ends with the new set
live, geometry is kept and passed on, a good control frame acts as its cell, and the frame that a port packs is whole, numbered and sealed
(14 R355). That a member in the ring's order first starts the result cell, what the live segment is, the bytes of the control cells, what
a fence carries, and the CCLKs of merging are the model's readings (notes/assumptions/22.md, 61.md, 62.md, 63.md, 64.md). -/
def Obligations.RingCells : Prop :=
  ∀ s : State, Calm s →
    (∀ (east : Bool) (k : KeyCell) (pr : Prof) (l : Chn), ringServes s = true → k.origin ≠ s.dev.devId →
      serving s k.origin k.slot = false → secondPass s (k.origin.toNat * 512 + k.slot.toNat) east = false → profDiffers s k = false →
        pr = profOf s k.profile.toNat → l = profLead pr → leadOf s l = l →
      lockMode s l ≠ 3 → isActive s l = true → (pwrOf s l).waking = none →
      ∃ t q, exec (.keyCellReceive east k) s = .next t ∧ t.searches = s.searches ++ [q] ∧ q.mem = some ⟨k.origin, k.slot, east⟩ ∧
        q.stage = .offer s.cclk ∧ q.cls = 0 ∧ q.prof = pr ∧ q.key = spanKey (spanOf pr).1 k.span ∧ q.stampIn = k.stamp ∧
        t.ring.tx = s.ring.tx ++ [(outDir s east, .key k)]) ∧
    (∀ (east : Bool) (c : ResultCell) (q : Srch) (m : CascM) (d : Nat), ringServes s = true → c.origin ≠ s.dev.devId →
      s.ring.refuse = [] → s.searches = [q] → q.mem = some m → m.origin = c.origin → m.slot = c.slot → q.stage = .cell d →
      ∃ t, exec (.resultCellMerge east c) s = .next t ∧ t.searches = [] ∧
        t.ring.tx = s.ring.tx ++ [(outDir s east, .result (mergeCell q c))] ∧ t.ring.wait = []) ∧
    (∀ (n : BitVec 9) (c : ResultCell) (q : Srch) (o : CascO) (d : Nat) (rs : List LkRes), s.searches = [q] → q.mem = none →
      q.cmd.wq = none → q.org = some o → o.slot = n → o.missing = 0 → q.stage = .cell d → s.cclk ≤ d → s.ring.back = [c] → c.slot = n →
      c.refuse = 0 → q.ctxBad = false → profSe q.prof.ctl = false → q.cmd.op = 0x10 →
      rs = (q.cmp.getD []).zipIdx.map (fun x => mergeLk (cellLk x.2 (c.poison.getD 0) (nth c.lks x.2 ⟨0, []⟩)) x.1 x.1) →
      poisonReport rs = none → (∀ r ∈ rs, r.part = false) →
      ∃ t r, exec (.cascadeOriginMerge n) s = .next t ∧ t.searches = [] ∧ t.replies = s.replies ++ [r] ∧ r.status = stOk ∧
        r.pay = rs.zipIdx.flatMap (fun x => lkWords q x.2 x.1) ∧ r.ready = d + 2 ∧ t.ring.back = []) ∧
    (∀ c : ResultCell, ringServes s = true → c.origin = s.dev.devId → s.searches = [] →
      exec (.lateResultCell c) s = .next (afterwards (bump 0x4C028 s))) ∧
    (∀ ms : List MemberId, s.ring.st = .forming →
      (formationBack ms s = false → ms.all (idFits s) = true →
        ∃ t, exec (.formationCell ms) s = .next t ∧ t.ring.st = .forming ∧
          t.ring.tx = s.ring.tx ++ [(outDir s true, .control 1 s.dev.devId (formBytes (ms ++ [ownId s])))]) ∧
      (formationBack ms s = true → (ms.drop 1).all (idFits s) = true →
        ∃ t, exec (.formationCell ms) s = .next t ∧ t.ring.st = .formed ∧ t.ring.live = ringMembers s ∧
          t.ring.hops = popB (ringMembers s) ∧
          t.ring.tx = s.ring.tx ++ [(outDir s true, .control 3 s.dev.devId [ringMembers s])])) ∧
    (∀ (reach : BitVec 8) (l : Byte), s.ring.st = .forming → l = segment (reach &&& ~~~s.ring.absent) s →
      ∃ t, exec (.formingTimeout reach) s = .next t ∧ t.ring.st = .wrapped ∧ t.ring.live = l ∧ t.ring.hops = 2 * (popB l - 1) ∧
        (∀ (east : Bool) (d : Nat), neighbourOf s east = some d → (portOf t east).wrapped = !l.getLsbD d) ∧
        t.cclk = max s.cclk (s.ring.formAt + 50 * cclkPerUs s.part.grade)) ∧
    (∀ east : Bool, s.ring.st = .formed →
      ∃ t, exec (.neighbourLost east) s = .next t ∧ t.cclk = max s.cclk ((portOf s east).heardAt + cclkPerUs s.part.grade) ∧ (portOf t east).wrapped = true ∧ (portOf t east).st = .train ∧
        (∀ d ∈ neighbourOf s east, t.ring.live.getLsbD d = false ∧ t.ring.st = .wrapped)) ∧
    (∀ (live : BitVec 8) (l : Byte), ringServes s = true → l = segment (live &&& s.ring.live) s → l ≠ s.ring.live →
      ∃ t e, exec (.ringChangeCell live) s = .next t ∧ t.ring.live = l ∧ t.ring.st = (if l = ringMembers s then .formed else .wrapped) ∧
        t.ring.tx = s.ring.tx ++ [(outDir s e, .control 3 s.dev.devId [l])]) ∧
    (∀ (port ring : Bool) (live : Byte), s.ring.st = .joining → (portOf s ring).fence = true → (!port) = ring ∨ outDir s (!port) = ring →
      ((portOf s (!ring)).fence = true →
        ∃ t, exec (.fenceCell ⟨port, s.dev.devId, ring, live⟩) s = .next t ∧ (portOf t ring).fence = false ∧ (portOf t ring).heard = live ∧
          (portOf t (!ring)).fence = true ∧ t.ring.st = .joining ∧ t.ring.tx = s.ring.tx) ∧
      (∀ l : Byte, (portOf s (!ring)).fence = false → l = segment (s.ring.live ||| (portOf s (!ring)).heard ||| live ||| ownBit s) s →
        ∃ t, exec (.fenceCell ⟨port, s.dev.devId, ring, live⟩) s = .next t ∧ t.ring.live = l ∧
          t.ring.st = (if l = ringMembers s then .formed else .wrapped) ∧ t.ring.east.fence = false ∧ t.ring.west.fence = false ∧
          (∀ (east : Bool) (d : Nat), neighbourOf s east = some d → (portOf t east).wrapped = !l.getLsbD d))) ∧
    (∀ (port ring : Bool) (d : BitVec 3) (live : Byte), ringServes s = true → d ≠ s.dev.devId → s.ring.live.getLsbD d.toNat = false →
      (portOf s port).st = .up → (portOf s (!ring)).fence = false →
      ∃ t e, exec (.fenceCell ⟨port, d, ring, live⟩) s = .next t ∧ (portOf t ring).fence = true ∧
        (portOf t ring).heard = (portOf s ring).heard ||| live ||| BitVec.ofNat 8 (2 ^ d.toNat) ∧
        (neighbourOf s port = some d.toNat → (portOf t port).wrapped = false) ∧
        (e, Cell.control 4 d [if ring then 1 else 0, live ||| s.ring.live]) ∈ t.ring.tx ∧ t.ring.live = s.ring.live ∧ t.ring.st = s.ring.st) ∧
    (∀ (d : Fin 8) (p : BitVec 7) (g : Geometry), s.ring.st ≠ .off → d.val ≠ s.dev.devId.toNat →
      ∃ t e, exec (.geometryCell d p g) s = .next t ∧ t.ring.geo = mset s.ring.geo (d.val * 128 + p.toNat) g ∧
        t.ring.tx = s.ring.tx ++ [(outDir s e, .control 2 (BitVec.ofNat 3 d) (geoBytes p.toNat g))]) ∧
    (∀ (east : Bool) (f : Frame) (live l : Byte), brxFrame east false f s = (some f, none, s) → (portOf s east).st = .up →
      crc24 f = f.ctl.setWidth 24 →
      fld f.ctl 63 56 = (portOf s east).rxSeq.toNat → fld f.ctl 55 48 = 0 → (∀ i < 24, bitAt f.ctl (24 + i) = true) →
      nth f.bytes 0 0 = 3 → nth f.bytes 2 0 = live → ringServes s = true → l = segment (live &&& s.ring.live) s → l ≠ s.ring.live →
      ∃ t, exec (.cascadeFrameReceive east f) s = .next t ∧ (portOf t east).rxSeq = (portOf s east).rxSeq + 1 ∧ t.ring.live = l) ∧
    (∀ east : Bool, (packFrame east s).1.bytes.length = 248 ∧ crc24 (packFrame east s).1 = (packFrame east s).1.ctl.setWidth 24 ∧
      fld (packFrame east s).1.ctl 63 56 = (portOf s east).slot % 256)

/-- FLITS OF AN L-MODE GROUP THAT IS UP (05 R131; 14 R343-R350): a good DATA flit with the expected number joins the packet under way, any
other is counted and asks for a resend; one that holds a whole NOP completes the command; a control flit brings heartbeat, credit and
acknowledgement; the CTRL flit of its slot goes out with the IDLE flits before it; unacknowledged flits go out again after 1.0 us; the next
flit of a reply goes out and is kept, and of two ordered replies that of the command checked first, whichever is ready first. ON A T-MODE
GROUP a flit with a later number drops the packet begun before it, and a flit that fails its FEC or CRC is counted and drops it too (14
R350). The flits of one reply follow each other, and the reading of an empty receive buffer at a loss, are the model's choice
(notes/assumptions/20.md, 42.md). -/
def Obligations.FlitsMove : Prop :=
  (∀ (g : Fin 8) (s : State), Calm s → s.pg[g].st = .up → s.pg[g].tmode = false → s.brx[brxN g].tx = false → s.brx[brxN g].outFlit = none →
    (∀ (f : Flit) (fec : Bool), isData f = true → brxFlit g false f s = (some f, none, s) →
      (crcGood f = true → fld f.hdr 29 18 = s.pg[g].rxSeq.toNat → credit (s.pg[g].flitGrant - s.pg[g].rxNum) = true →
        s.pg[g].resync = false → s.pg[g].rx = [] → fld f.hdr 14 9 = 32 → 4 ≤ fld f.w0 31 24 →
        ∃ t, exec (.dataFlitReceive g f fec) s = .next t ∧ t.pg[g].rxSeq = s.pg[g].rxSeq + 1 ∧ t.pg[g].rxNum = s.pg[g].rxNum + 1 ∧
          t.pg[g].rx = [f.w0, f.w1, f.w2, f.w3] ∧ t.replies = s.replies ∧ t.sram = s.sram ∧ t.regs = s.regs ∧ t.cclk = s.cclk) ∧
      (∀ p : Pkt, crcGood f = true → fld f.hdr 29 18 = s.pg[g].rxSeq.toNat → credit (s.pg[g].flitGrant - s.pg[g].rxNum) = true →
        credit (s.pg[g].cmdGrant - s.pg[g].cmdNum) = true → closing s = false → s.pg[g].resync = false → s.pg[g].rx = [] →
        fld f.hdr 14 9 = 8 → fld f.w0 31 24 = 0 → parsePkt (pgAp g) f.w0 [] = (0x00, p) → GoodHead 0x00 p → Plain p →
        ∃ t, exec (.dataFlitReceive g f fec) s = .next t ∧ t.pg[g].rx = [] ∧ t.pg[g].cmdNum = s.pg[g].cmdNum + 1 ∧
          t.replies = (replied 0x00 p s.nextId stOk 0 [] (s.cclk + 6) s).replies ∧ t.nextId = s.nextId + 1 ∧ t.sram = s.sram ∧
          t.regs = s.regs) ∧
      (crcGood f = false ∨ fld f.hdr 29 18 ≠ s.pg[g].rxSeq.toNat → satOf s (pgReg g 0x10) = false →
        ∃ t, exec (.dataFlitReceive g f fec) s = .next t ∧ getCnt t (pgReg g 0x10) = getCnt s (pgReg g 0x10) + 1 ∧
          t.pg[g].nakEpisode = true ∧ t.pg[g].nakSend = (s.pg[g].nakSend || !s.pg[g].nakEpisode) ∧ t.pg[g].rxSeq = s.pg[g].rxSeq ∧
          t.pg[g].rx = s.pg[g].rx ∧ t.replies = s.replies ∧ t.sram = s.sram ∧ t.regs = s.regs)) ∧
    (∀ (f f0 : Flit) (rest : List Flit) (n : Nat), isData f = false → crcGood f = true → brxFlit g false f s = (some f, none, s) →
      s.pg[g].replay = f0 :: rest → bitAt f.w0 19 = false →
      n = (BitVec.ofNat 12 (fld f.w0 31 20) - BitVec.ofNat 12 (fld f0.hdr 29 18) + 1).toNat → n ≤ rest.length + 1 →
      ∃ t, exec (.ctrlFlitReceive g f) s = .next t ∧ t.pg[g].hbAt = s.cclk ∧ t.pg[g].hostCrd = BitVec.ofNat 16 (fld f.w0 47 32) ∧
        t.pg[g].replay = (f0 :: rest).drop n ∧ t.pg[g].out = s.pg[g].out ∧ t.replies = s.replies ∧ t.sram = s.sram ∧ t.regs = s.regs) ∧
    (∃ t l f, exec (.ctrlFlitSend g) s = .next t ∧ t.pg[g].out = s.pg[g].out ++ l ++ [f] ∧ l.length = (9 - s.pg[g].slot % 5) % 5 ∧
      (∀ x ∈ l, fld x.hdr 31 30 = 2) ∧ fld f.hdr 31 30 = 1 ∧ crcGood f = true ∧ fld f.hdr 29 18 = s.pg[g].txSeq.toNat ∧
      fld f.w0 31 20 = (s.pg[g].rxSeq - 1).toNat ∧ t.pg[g].slot = s.pg[g].slot + l.length + 1 ∧ t.replies = s.replies ∧ t.sram = s.sram ∧
      t.regs = s.regs) ∧
    (s.pg[g].replay ≠ [] → s.pg[g].episodes < 7 → s.cclk ≤ s.pg[g].ackAt + cclkPerUs s.part.grade →
      ∃ t, exec (.replayTimeout g) s = .next t ∧ t.cclk = s.pg[g].ackAt + cclkPerUs s.part.grade ∧ t.pg[g].replay = s.pg[g].replay ∧
        t.pg[g].episodes = s.pg[g].episodes + 1 ∧ (∀ f ∈ s.pg[g].replay, f ∈ t.pg[g].out) ∧ t.pg[g].st = .up ∧ t.replies = s.replies ∧
        t.sram = s.sram ∧ t.regs = s.regs) ∧
    (∀ (e : Nat) (r : Reply), nextReply s g = some (e, r) → s.pg[g].discardTo ≤ r.id → maySend s g = true → r.after = .nothing →
      s.cclk ≤ max e s.pg[g].txFree →
      ∃ t, exec (.replyEgress (pgAp g)) s = .next t ∧ t.cclk = max e s.pg[g].txFree ∧ replyFlit s.pg[g].txSeq r r.sent ∈ t.pg[g].out ∧
        t.pg[g].txSeq = s.pg[g].txSeq + 1 ∧ t.pg[g].txNum = s.pg[g].txNum + 1 ∧
        t.pg[g].replay = s.pg[g].replay ++ [replyFlit s.pg[g].txSeq r r.sent] ∧
        (cdiv (8 * (1 + r.pay.length)) 32 ≤ r.sent + 1 → t.replies = s.replies.filter (·.id != r.id)) ∧
        (r.sent + 1 < cdiv (8 * (1 + r.pay.length)) 32 →
          t.replies = s.replies.map fun x => if x.id = r.id then { x with sent := x.sent + 1 } else x) ∧ t.sram = s.sram) ∧
    (∀ a b : Reply, s.replies = [b, a] → a.ap = pgAp g → b.ap = pgAp g → a.ord = true → b.ord = true → a.id < b.id → a.sent = 0 → b.sent = 0 →
      s.searches = [] → s.pg[g].lastOrd = none → s.pg[g].discardTo ≤ a.id → maySend s g = true → a.after = .nothing → a.pay.length ≤ 3 →
      s.cclk ≤ max a.ready s.pg[g].txFree →
      ∃ t, exec (.replyEgress (pgAp g)) s = .next t ∧ t.cclk = max a.ready s.pg[g].txFree ∧ replyFlit s.pg[g].txSeq a 0 ∈ t.pg[g].out ∧
        t.replies = [b] ∧ t.pg[g].lastOrd = some t.cclk ∧
        (b.ready ≤ t.cclk → nextReply t g = some (t.cclk + 1, b)) ∧ t.sram = s.sram)) ∧
  (∀ (g : Fin 8) (s : State) (f : Flit), Calm s → s.pg[g].st = .up → s.pg[g].tmode = true → isData f = true →
    brxFlit g false f s = (some f, none, s) → s.pg[g].resync = false → satOf s (pgReg g 0x20) = false → satOf s (pgReg g 0x10) = false →
    (∀ (d : Nat) (h : Word) (l : List Word), crcGood f = true → 1 ≤ d → d < 2048 →
      BitVec.ofNat 12 (fld f.hdr 29 18) = s.pg[g].rxSeq + BitVec.ofNat 12 d → s.pg[g].rx = h :: l → bitAt f.hdr 17 = false →
      credit (s.pg[g].flitGrant - (s.pg[g].rxNum + BitVec.ofNat 16 d)) = true →
      ∃ t, exec (.dataFlitReceive g f true) s = .next t ∧ getCnt t (pgReg g 0x20) = getCnt s (pgReg g 0x20) + 1 ∧
        getCnt t (pgReg g 0x10) = getCnt s (pgReg g 0x10) ∧ t.pg[g].rx = [] ∧ t.pg[g].resync = true ∧
        t.pg[g].rxSeq = s.pg[g].rxSeq + BitVec.ofNat 12 d + 1 ∧ t.pg[g].cmdNum = s.pg[g].cmdNum + 1 ∧ t.replies = s.replies ∧
        t.sram = s.sram ∧ t.regs = s.regs) ∧
    (∀ fec : Bool, (fec && crcGood f) = false →
      ∃ t, exec (.dataFlitReceive g f fec) s = .next t ∧ getCnt t (pgReg g 0x10) = getCnt s (pgReg g 0x10) + 1 ∧
        getCnt t (pgReg g 0x20) = getCnt s (pgReg g 0x20) + 1 ∧ t.pg[g].rx = [] ∧ t.pg[g].resync = true ∧
        t.pg[g].rxSeq = s.pg[g].rxSeq ∧ t.pg[g].nakSend = s.pg[g].nakSend ∧ t.replies = s.replies ∧ t.sram = s.sram ∧ t.regs = s.regs))

/-- PORT STATES (07 R170; 14 R351-R354): a group trains to UP with its numbers at zero, drains and trains again, is lost when its host
falls silent, sends its heartbeat in low-power idle, and comes back from it aligned or in TRAIN; a cascade port trains to UP. Which
replies a lost group discards, and which numbers begin anew, are the model's reading (notes/assumptions/41.md, 42.md). -/
def Obligations.PortStates : Prop :=
  ∀ (g : Fin 8) (s : State),
    (Calm s →
      (∀ (port : Fin 10) (pol : Byte) (rev : Bool), port.val = g.val → s.pg[g].st = .train → s.pg[g].next = none →
        regB s (pgReg g 0) 28 = false →
        ∃ t, exec (.trainingComplete port pol rev) s = .next t ∧ t.pg[g].st = .up ∧ t.pg[g].pol = pol.setWidth 4 ∧ t.pg[g].laneRev = rev ∧
          t.pg[g].txSeq = 0 ∧ t.pg[g].rxSeq = 0 ∧ t.pg[g].slot = 0 ∧ t.pg[g].replay = [] ∧ t.pg[g].hbAt = s.cclk ∧
          t.pg[g].eqUse = some (getReg s (pgReg g 4)) ∧ t.pg[g].tmode = regB s (pgReg g 0) 30 ∧ t.replies = s.replies ∧ t.sram = s.sram ∧
          t.regs = s.regs) ∧
      (∀ (port : Fin 10) (pol : Byte) (rev : Bool), port.val = 8 → s.ring.east.st = .train → s.ring.st ≠ .forming →
        ∃ t, exec (.trainingComplete port pol rev) s = .next t ∧ t.ring.east.st = .up ∧ t.ring.east.pol = pol ∧ t.ring.east.rxSeq = 0 ∧
          t.ring.west = s.ring.west ∧ t.ring.st = s.ring.st ∧ t.sram = s.sram ∧ t.regs = s.regs) ∧
      (s.pg[g].st = .drain → owes s (pgAp g) = false → s.pg[g].rx = [] →
        ∃ t, exec (.drainEnd g) s = .next t ∧ t.pg[g].st = .train ∧ t.pg[g].next = s.pg[g].next ∧ t.replies = s.replies ∧ t.sram = s.sram ∧
          t.regs = s.regs) ∧
      (s.pg[g].st = .up → s.cclk ≤ s.pg[g].hbAt + regF s (pgReg g 0) 21 16 * cclkPerUs s.part.grade / 2 → satOf s (pgReg g 0x28) = false →
        ∃ t, exec (.hostLoss g) s = .next t ∧ t.cclk = s.pg[g].hbAt + regF s (pgReg g 0) 21 16 * cclkPerUs s.part.grade / 2 ∧
          t.pg[g].st = .train ∧ t.pg[g].rx = [] ∧ t.pg[g].discardTo = s.nextId ∧
          getCnt t (pgReg g 0x28) = getCnt s (pgReg g 0x28) + 1 ∧
          (∀ h ∈ t.qm.held, ¬(h.cmd.wq = none ∧ h.cmd.p.ap = pgAp g)) ∧ t.sram = s.sram ∧ t.regs = s.regs) ∧
      (s.pg[g].st = .lpi →
        (∃ t, exec (.groupRealigned g) s = .next t ∧ t.pg[g].st = .up ∧ t.pg[g].txSeq = 0 ∧ t.pg[g].rxSeq = 0 ∧ t.pg[g].hb = 0 ∧
          t.pg[g].eqUse = s.pg[g].eqUse ∧ t.pg[g].tmode = s.pg[g].tmode ∧ t.replies = s.replies ∧ t.sram = s.sram ∧ t.regs = s.regs) ∧
        (∃ t, exec (.realignTimeout g) s = .next t ∧ t.pg[g].st = .train ∧ t.replies = s.replies ∧ t.sram = s.sram ∧ t.regs = s.regs))) ∧
    (s.dev.st = .darkroom → s.pg[g].st = .lpi →
      ∃ t f, exec (.lpiHeartbeat g) s = .next t ∧ t.pg[g].out = s.pg[g].out ++ [f] ∧ fld f.hdr 31 30 = 2 ∧ crcGood f = true ∧
        t.pg[g].hb = s.pg[g].hb + 1 ∧ t.pg[g].st = .lpi ∧ (∀ h : Fin 8, h ≠ g → t.pg[h] = s.pg[h]) ∧ t.cclk = s.cclk ∧ t.sram = s.sram ∧
        t.replies = s.replies)

/-- THE PCIE FUNCTION (14 R359-R363; 05 R133): the host moves its indexes, commands are fetched, a fetch error stops fetching, a reply
goes to the completion ring, vectors are sent with their table's address and data, masked and unmasked, the coalescing time requests the
vector, and FLR and the link's going down clear the rings. What the rings begin anew with is the model's reading
(notes/assumptions/44.md). -/
def Obligations.PcieFunction : Prop :=
  ∀ s : State, Calm s →
    (∀ v : Reg, s.pcie.up = true →
      exec (.dbSqTail v) s = .next (afterwards { s with pcie := { s.pcie with sqTail := v.toNat % (2 * 2 ^ regF s 0x4A010 28 24) } }) ∧
      exec (.dbCqHead v) s = .next (afterwards { s with pcie := { s.pcie with cqHead := v.toNat % (2 * 2 ^ regF s 0x4A010 20 16) } })) ∧
    (∀ (h : Word) (p : Pkt), closing s = false → fetching s = true → parsePkt 8 h [] = (0x00, p) → GoodHead 0x00 p → Plain p →
      fld h 31 24 = 0 → 1 ≤ sqAhead s → (s.pcie.owed + 1) * 257 ≤ cqFree s →
      ∃ t, exec (.commandFetch [h]) s = .next t ∧ t.pcie.sqHead = (s.pcie.sqHead + 1) % (2 * sqSize s) ∧ t.pcie.owed = s.pcie.owed + 1 ∧
        t.replies = (replied 0x00 p s.nextId stOk 0 [] (s.cclk + 6) s).replies ∧ t.nextId = s.nextId + 1 ∧ t.sram = s.sram ∧ t.regs = s.regs) ∧
    (fetching s = true → sqAhead s ≠ 0 → satOf s 0x4A028 = false →
      ∃ t, exec .fetchError s = .next t ∧ t.pcie = { s.pcie with fetchErr := true } ∧ getCnt t 0x4A028 = getCnt s 0x4A028 + 1 ∧
        t.regs = s.regs ∧ t.sram = s.sram) ∧
    (∀ (e : Nat) (r : Reply) (n w : Nat), firstReply ((s.replies.filter (·.ap == 8)).map fun r => (r.ready, r)) = some (e, r) →
      r.after = .nothing → s.pcie.discardTo ≤ r.id → regB s 0x4A010 30 = true → s.cclk ≤ e → n = 2 ^ regF s 0x4A010 20 16 → w = s.pcie.cqW →
      (replyWords r).length < n →
      ∃ t, exec (.replyEgress 8) s = .next t ∧ t.cclk = e ∧ t.replies = s.replies.filter (·.id != r.id) ∧
        t.pcie.cqW = (w + 1 + (replyWords r).length) % (2 * n) ∧
        mget t.pcie.cq (w % n) = some (pack 64 [(b2n s.pcie.phase, 63, 63), ((replyWords r).length, 8, 0)]) ∧
        (∀ k (h : k < (replyWords r).length), mget t.pcie.cq ((w + 1 + k) % n) = some (replyWords r)[k]) ∧ t.sram = s.sram ∧
        t.regs = s.regs) ∧
    (∀ (v : Nat) (rest : List Nat), s.pcie.up = true → s.pcie.reqs = v :: rest → v < 64 →
      ∃ t, exec .msixMessage s = .next t ∧ t.pcie = (if bitAt s.pcie.mask v
          then { s.pcie with reqs := rest, pba := s.pcie.pba ||| pack 64 [(1, v, v)] }
          else { s.pcie with reqs := rest, msgs := s.pcie.msgs ++ [BitVec.ofNat 6 v],
                             sent := s.pcie.sent ++ [mgetD s.pcie.vecs v (0, 0)] }) ∧ t.regs = s.regs ∧ t.sram = s.sram) ∧
    (∀ (v : Fin 64) (addr : Word) (data : Reg), s.pcie.up = true →
      (∃ t, exec (.msixUnmask ⟨v, addr, data, true⟩) s = .next t ∧ bitAt t.pcie.mask v = true ∧ t.pcie.pba = s.pcie.pba ∧
        t.pcie.msgs = s.pcie.msgs ∧ (∀ w : Fin 64, w ≠ v → bitAt t.pcie.mask w = bitAt s.pcie.mask w) ∧ t.regs = s.regs ∧ t.sram = s.sram) ∧
      (∃ t, exec (.msixUnmask ⟨v, addr, data, false⟩) s = .next t ∧ bitAt t.pcie.mask v = false ∧ bitAt t.pcie.pba v = false ∧
        t.pcie.msgs = s.pcie.msgs ++ (if bitAt s.pcie.pba v then [BitVec.ofNat 6 v] else []) ∧
        t.pcie.sent = s.pcie.sent ++ (if bitAt s.pcie.pba v then [(addr, data)] else []) ∧
        (∀ w : Fin 64, w ≠ v → bitAt t.pcie.mask w = bitAt s.pcie.mask w ∧ bitAt t.pcie.pba w = bitAt s.pcie.pba w) ∧ t.regs = s.regs ∧
        t.sram = s.sram)) ∧
    (∀ t0 due : Nat, s.pcie.oldest = some t0 → regF s 0x4A014 15 0 ≠ 0 → regB s 0x4A010 29 = true →
      due = t0 + nsToCclk s.part.grade (regF s 0x4A014 15 0) → s.cclk ≤ due →
      ∃ t, exec .coalTimeout s = .next t ∧ t.cclk = due ∧
        t.pcie = { s.pcie with reqs := s.pcie.reqs ++ [regF s 0x4A010 13 8], markers := 0, oldest := none } ∧ t.regs = s.regs ∧ t.sram = s.sram) ∧
    (∀ (i : Instr) (down : Bool), (i = .functionLevelReset ∧ down = false ∨ i = .pcieLinkDown ∧ down = true) →
      ∃ t, exec i s = .next t ∧ t.pcie.up = (s.pcie.up && !down) ∧ t.pcie.sqHead = 0 ∧ t.pcie.cqW = 0 ∧ t.pcie.phase = true ∧
        t.pcie.pba = 0 ∧ t.pcie.discardTo = s.nextId ∧
        (∀ a ∈ [0x4A000, 0x4A004, 0x4A008, 0x4A00C, 0x4A010, 0x4A014], getReg t a = regFac s.part.grade a) ∧
        (∀ a, a < 0x4A000 ∨ 0x4A018 ≤ a → getReg t a = getReg s a) ∧ t.sram = s.sram ∧ t.replies = s.replies) ∧
    (∀ (speed : BitVec 3) (width : BitVec 2), 1 ≤ speed.toNat → speed.toNat ≤ 4 → 1 ≤ width.toNat → width.toNat ≤ 2 →
      exec (.pcieLinkUp speed width) s = .next (afterwards { s with pcie := { s.pcie with up := true, speed := speed, width := width } }))

/-- RANDOM INJECTION: for each eligible unit the register of a target advances once, by the polynomial of brx_next, and the unit is
injected on exactly when the new value is below `thresh` (14 R366). BREACH_CFG is refused while breach test is disabled; while it is
enabled its reply brings the setting, which comes into force when that reply has left (14 R364). INJECTION ON A RECEIVED DATA FLIT, every
`n`-th of them: action 1 drops it, action 2 XORs its first word, action 3 holds it (14 R365). When the reply of BREACH_CFG is complete and
which numbers count the units are the model's choice (notes/assumptions/9.md, 84.md). -/
def Obligations.BreachTest : Prop :=
  (∀ (p : Pkt) (s : State), FwReady s → GoodHead 0x70 p →
     (regB s 0x4E000 31 = false →
       exec (.breachCfg p) s = .next (afterwards (replied 0x70 p s.nextId stDenied 0 [] s.cclk (takenIn p s)))) ∧
     (∀ (t action : Nat) (random : Bool) (n th lim : Reg) (x : Word), regB s 0x4E000 31 = true → t ≤ 9 → action < 4 →
       p.arg = BitVec.ofNat 24 (t * 2 ^ 20 + action * 2 ^ 17 + b2n random * 2 ^ 16) → n ≠ 0 → (random = true → th ≠ 0) →
       p.pay = [n ++ th, x, (0 : BitVec 32) ++ lim] →
       ∃ u r, exec (.breachCfg p) s = .next u ∧ u.brx = s.brx ∧ u.replies = s.replies ++ [r] ∧ r.op = 0x70 ∧ r.ap = p.ap ∧ r.tag = p.tag ∧
         r.status = stOk ∧ r.pay = [] ∧
         r.after = .breach (brxN t)
           { tx := false, action := BitVec.ofNat 2 action, random := random, ctl := false, recrc := false, n := n, s := n, thresh := th,
             xor := x, limit := lim } ∧ u.regs = s.regs ∧ u.sram = s.sram)) ∧
  (∀ (g : Fin 8) (s : State) (e : Nat) (r : Reply) (n : Fin 10) (x : Brx), Calm s → s.pg[g].st = .up → s.brx[brxN g].tx = false →
     s.brx[brxN g].outFlit = none → s.ring.east.st ≠ .up → s.ring.west.st ≠ .up → nextReply s g = some (e, r) → s.pg[g].discardTo ≤ r.id → maySend s g = true →
     r.after = .breach n x → r.pay = [] → r.sent = 0 → s.cclk ≤ max e s.pg[g].txFree →
     ∃ t, exec (.replyEgress (pgAp g)) s = .next t ∧ t.replies = s.replies.filter (·.id != r.id) ∧
       t.brx[n] = { x with action := if regB s 0x4E000 31 then x.action else 0,
                           heldFlit := s.brx[n].heldFlit, heldFec := s.brx[n].heldFec, heldFrame := s.brx[n].heldFrame,
                           outFlit := s.brx[n].outFlit, outFrame := s.brx[n].outFrame } ∧
       (∀ m : Fin 10, m ≠ n → t.brx[m] = s.brx[m])) ∧
  (∀ (g : Fin 8) (s : State) (f : Flit) (x : Brx) (a : Nat), Calm s → s.pg[g].st = .up → s.pg[g].tmode = false → isData f = true →
     x = s.brx[brxN g] → x.tx = false → x.random = false → x.heldFlit = none → (x.seen + 1) % max 1 x.n.toNat = 0 → x.limit = 0 →
     a = 0x4E100 + g.val * 8 →
     (x.action = 1 ∨ x.action = 3 →
       ∃ t, exec (.dataFlitReceive g f true) s = .next t ∧ t.pg[g].rx = s.pg[g].rx ∧ t.pg[g].rxSeq = s.pg[g].rxSeq ∧
         t.pg[g].rxNum = s.pg[g].rxNum ∧ t.brx[brxN g].heldFlit = (if x.action = 3 then some f else none) ∧
         t.brx[brxN g].done = x.done + 1 ∧ mgetD t.stat a 0 = mgetD s.stat a 0 + 1 ∧ t.cnt = s.cnt ∧ t.replies = s.replies ∧
         t.sram = s.sram ∧ t.regs = s.regs) ∧
     (x.action = 2 → x.recrc = true → fld f.hdr 29 18 = s.pg[g].rxSeq.toNat → credit (s.pg[g].flitGrant - s.pg[g].rxNum) = true →
       s.pg[g].resync = false → s.pg[g].rx = [] → fld f.hdr 14 9 = 32 → 4 ≤ fld (f.w0 ^^^ x.xor) 31 24 →
       ∃ t, exec (.dataFlitReceive g f true) s = .next t ∧ t.pg[g].rx = [f.w0 ^^^ x.xor, f.w1, f.w2, f.w3] ∧
         t.pg[g].rxSeq = s.pg[g].rxSeq + 1 ∧ t.brx[brxN g].done = x.done + 1 ∧ mgetD t.stat a 0 = mgetD s.stat a 0 + 1 ∧ t.cnt = s.cnt ∧
         t.replies = s.replies ∧ t.sram = s.sram ∧ t.regs = s.regs)) ∧
  (∀ (t : Fin 10) (s : State), s.brx[t].random = true → s.brx[t].action ≠ 0 →
     (brxPick t s).2.brx[t].s = (s.brx[t].s >>> 1) ^^^ ((0 - (s.brx[t].s &&& 1)) &&& 0x80200003) ∧
     ((brxPick t s).1 = true ↔
       ((s.brx[t].s >>> 1) ^^^ ((0 - (s.brx[t].s &&& 1)) &&& 0x80200003)).toNat < s.brx[t].thresh.toNat) ∧
     (∀ u : Fin 10, u ≠ t → (brxPick t s).2.brx[u] = s.brx[u]))

/-- FW_STAGE of words writes the standby slot, which is no longer verified (15 R384; 17 R414). FW_SWITCH on its own is refused: it is run
only in a countersigned change (15 R385). When the replies are complete, and that FW_STAGE clears the slot's flash address, are the model's
choice (notes/assumptions/9.md, 36.md). -/
def Obligations.FirmwareStaged : Prop :=
  ∀ (p : Pkt) (s : State) (off : Nat) (ws : List Word), FwReady s → p.arg = 0 →
    (GoodHead 0x5E p → off % 8 = 0 → ws ≠ [] → off + 8 * ws.length ≤ 2 ^ 20 → p.pay = BitVec.ofNat 64 off :: ws → s.sramProof = none →
      (∀ k < ws.length, rgnAllows s 9 (pageOf (slotBase (!s.fw.active) + off / 8 + k)) true = true) →
      exec (.fwStage p) s = .next (afterwards (replied 0x5E p s.nextId stOk 0 [] s.cclk
        (writeMems (slotBase (!s.fw.active) + off / 8) ws
          (noteConflicts 9 ws.length (setReg (slotAddr (!s.fw.active)) (BitVec.allOnes 32)
            { takenIn p s with fw := { (takenIn p s).fw with standbyOk := false } })))))) ∧
    (GoodHead 0x5F p →
      exec (.fwSwitch p) s = .next (afterwards (replied 0x5F p s.nextId stDenied 0 [] s.cclk (takenIn p s))))

/-- IMAGE_SAVE waits for a save that starts at once (15 R386; 17 R409), DEV_RESET sends its reply before the reset, which comes when that
reply has left: the core domain is cleared, the Array domain stays, and of the straps FACTORY_N alone is sampled (15 R387; 17 R403).
DEV_RESET of a channel has its group refuse searches and waits for the drain (17 R405, step 1). When the replies are complete, and what
the channel reset refuses, are the model's choice (notes/assumptions/9.md, 35.md). -/
def Obligations.SaveAndReset : Prop :=
  (∀ (p : Pkt) (s : State), FwReady s → Plain p →
     (GoodHead 0x60 p →
       exec (.imageSave p) s = .next (afterwards (park (cmdOf 0x60 p s) .save
         { takenIn p s with saves := s.saves ++ [{ who := .reply (cmdOf 0x60 p s) }] }))) ∧
     (GoodHead 0x61 p →
       exec (.devReset p) s = .next (afterwards { takenIn p s with replies := s.replies ++ [
         { ap := p.ap, op := 0x61, status := stOk, tag := p.tag, info := 0, pay := [], id := s.nextId, ready := s.cclk,
           after := .deviceReset }] }))) ∧
  (∀ (g : Fin 8) (s : State) (e : Nat) (r : Reply), Calm s → s.pg[g].st = .up → s.brx[brxN g].tx = false → s.brx[brxN g].outFlit = none →
     nextReply s g = some (e, r) → s.pg[g].discardTo ≤ r.id → maySend s g = true → r.after = .deviceReset → r.pay = [] → r.sent = 0 →
     ∃ t, exec (.replyEgress (pgAp g)) s = .next t ∧ t.dev.st = .startup ∧ t.dev.cause = 3 ∧ t.dev.tablesKept = true ∧
       t.dev.devId = s.dev.devId ∧ t.dev.factoryStrap = !s.pins.factoryN ∧ t.searches = [] ∧ t.replies = [] ∧ t.regs = [] ∧ t.cnt = [] ∧
       t.aon = s.aon ∧ t.pcie.up = s.pcie.up ∧ t.sram = (s.sram.filter fun y => arrayWord y.1) ∧
       (∀ c : Chn, (chan t c).rows = (chan s c).rows)) ∧
  (∀ (p : Pkt) (s : State) (c l : Chn), FwReady s → Settled s → GoodHead 0x61 p → p.pay = [] →
     p.arg = BitVec.ofNat 24 (2 ^ 16 + c.val * 2 ^ 6) → l = leadOf s c →
     exec (.devResetChannel p) s = .next (afterwards (modChan l (fun k => { k with resetting := some (cmdOf 0x61 p s), resetDone := false })
       (park (cmdOf 0x61 p s) (.chReset l) (takenIn p s)))))

/-- THE FIRMWARE AND THE LATENT IMAGE (15 R384, R386; 16 R397; 17 R409, R412-R415): an image read from the flash is verified, starts
within 10 ms or gives way to the other slot; a switch is applied, or undone; a staged image is verified; a save is checked; a proposal's
window ends. What the image is verified from and what a denied access does are the model's reading (notes/assumptions/34.md, 36.md). -/
def Obligations.FirmwareEvents : Prop :=
  ∀ s : State, Calm s →
    (∀ (n : Nat) (l : List Word) (v : BitVec 16), s.fw.load = some n → s.fw.startBy = none → verify l = some v →
      (∀ b : Bool, firstDenied s 9 (slotBase (trySlot s n)) (l.take 131072).length b = none) →
      ∃ t, exec (.firmwareLoaded (some l)) s = .next t ∧ t.fw.load = some n ∧ t.fw.startBy = some (s.cclk + 10000 * cclkPerUs s.part.grade) ∧
        (if trySlot s n then t.fw.ver1 else t.fw.ver0) = v ∧ t.sram = (writeMems (slotBase (trySlot s n)) (l.take 131072) s).sram ∧
        t.regs = s.regs ∧ t.cclk = s.cclk) ∧
    (s.fw.load = some 1 → s.fw.startBy = none →
      ∃ t, exec (.firmwareLoaded none) s = .next t ∧ t.fw.load = none ∧ t.fw.bootSrc = 2 ∧ t.fw.up = s.fw.up ∧ t.regs = s.regs ∧
        t.sram = s.sram) ∧
    (∀ n d : Nat, s.fw.load = some n → s.fw.startBy = some d → s.fw.switchRun = none →
      ∃ t, exec .firmwareStart s = .next t ∧ t.fw.up = true ∧ t.fw.load = none ∧ t.fw.bootSrc = BitVec.ofNat 2 n ∧
        t.fw.active = trySlot s n ∧ t.regs = s.regs ∧ t.sram = s.sram ∧ t.cclk = s.cclk) ∧
    (∀ d : Nat, s.fw.load = some 0 → s.fw.startBy = some d → s.cclk ≤ d → hasFlash s 1 = true →
      ∃ t, exec .firmwareStartTimeout s = .next t ∧ t.cclk = d ∧ t.fw.load = some 1 ∧ t.fw.startBy = none ∧ t.fw.up = s.fw.up ∧
        t.regs = s.regs ∧ t.sram = s.sram) ∧
    (s.fw.switchWait = true → s.fw.parked = [] →
      ∃ t, exec .fwSwitchApply s = .next t ∧ t.fw = { s.fw with active := !s.fw.active, standbyOk := true, switchWait := false, up := false,
                                                                switchRun := some (s.cclk + 10000 * cclkPerUs s.part.grade) } ∧
        t.regs = s.regs ∧ t.sram = s.sram ∧ t.cclk = s.cclk) ∧
    (∀ d : Nat, s.fw.switchRun = some d → s.cclk ≤ d →
      ∃ t, exec .fwSwitchTimeout s = .next t ∧ t.cclk = d ∧
        t.fw = { s.fw with active := !s.fw.active, up := true, switchRun := none, switchFailed := true } ∧
        t.saves.length = s.saves.length + 1 ∧ t.regs = s.regs ∧ t.sram = s.sram) ∧
    (∀ (cmd : Cmd) (l : List Word) (v : BitVec 16), s.fw.parked = [⟨cmd, .flash⟩] → cmd.wq = none → s.sramProof = none →
      verify (l.take 131072) = some v → 4 ≤ l.length →
      (∀ b : Bool, firstDenied s 9 (slotBase (!s.fw.active)) (l.take 131072).length b = none) →
      ∃ t, exec (.flashStageComplete (some l)) s = .next t ∧ t.fw.standbyOk = true ∧ t.fw.parked = [] ∧
        (if s.fw.active then t.fw.ver0 else t.fw.ver1) = v ∧
        t.replies = (replied cmd.op cmd.p cmd.id stOk (BitVec.ofNat 24 v.toNat) [] s.cclk s).replies ∧ t.regs = s.regs) ∧
    (∀ (cmd : Cmd) (img : Image) (b ok : Bool), s.saves = [⟨.reply cmd, some img, b⟩] → s.fw.parked = [⟨cmd, .save⟩] → cmd.wq = none →
      cmd.op = 0x60 → saveDenied b img s = none →
      ∃ t, exec (.latentImageSave ok) s = .next t ∧ t.saves = [] ∧ t.fw.parked = [] ∧
        (ok = true → (if b then t.aon.img1 else t.aon.img0) = some img) ∧ (ok = false → t.aon = s.aon) ∧
        t.replies = (replied 0x60 cmd.p cmd.id (if ok then stOk else stPoison) (BitVec.ofNat 24 (img.gen % 65536)) [] s.cclk s).replies ∧
        t.regs = s.regs ∧ t.sram = s.sram) ∧
    (∀ p : Proposal, s.prot.props = [p] → s.cclk ≤ p.until_ →
      ∃ t, exec .proposalWindowEnd s = .next t ∧ t.cclk = p.until_ ∧ t.prot.props = [] ∧ t.prot.ended = s.prot.ended ++ [p] ∧
        t.replies = s.replies ∧ t.regs = s.regs ∧ t.sram = s.sram)

/-- A PROPOSAL is stored with its digest for its window and awaits its countersign (15 R388; 16 R396, R397). PROT_WITHDRAW takes a
proposal off the list, and PROT_STATUS lists those outstanding (15 R390). When the replies are complete is the model's choice
(notes/assumptions/9.md). -/
def Obligations.ProposalStored : Prop :=
  (∀ (p : Pkt) (s : State) (l : List (Word × List Word)), FwReady s → GoodHead 0x68 p → p.arg = 0 → authOf s p.ap ≠ 0 →
     2 ≤ p.pay.length → itemsOf 256 p.pay = some l → l.all (fun x => !itemBad s x) = true → s.prot.props.length < 4 →
     (∀ x ∈ s.prot.props ++ s.prot.ended, x.id ≠ s.aon.nextProp) →
     exec (.protPropose p) s = .next (afterwards (replied 0x68 p s.nextId stAwaitCs (BitVec.ofNat 24 s.aon.nextProp.toNat)
       [s.aon.nextProp ++ (0 : BitVec 16) ++ digestOf p.pay] s.cclk
       { takenIn p s with
         prot := { s.prot with props := s.prot.props ++ [
           { id := s.aon.nextProp, auth := BitVec.ofNat 2 (authOf s p.ap), digest := digestOf p.pay, words := p.pay,
             until_ := s.cclk + regF s 0x30008 9 0 * 1000 * cclkPerUs s.part.grade }] }
         aon := { s.aon with nextProp := if s.aon.nextProp = BitVec.allOnes 16 then 1 else s.aon.nextProp + 1 } }))) ∧
  (∀ (p : Pkt) (s : State), FwReady s → p.arg = 0 →
     (GoodHead 0x6A p → ∀ id : BitVec 16, p.pay = [(0 : BitVec 16) ++ id ++ (0 : BitVec 32)] → authOf s p.ap ≠ 0 →
       s.prot.props.any (·.id == id) = true →
       exec (.protWithdraw p) s = .next (afterwards (replied 0x6A p s.nextId stOk 0 [] s.cclk (dropProp id (takenIn p s))))) ∧
     (GoodHead 0x6B p → p.pay = [] →
       exec (.protStatus p) s = .next (afterwards (replied 0x6B p s.nextId stOk 0 (s.prot.props.map (propWord s)) s.cclk
         (takenIn p s)))))

/-- A COUNTERSIGN by the other authority with the right digest applies the change set and waits for the save (15 R389; 16 R398, R399). One
of a change set that writes one register of the protection block COMPLETES: the register holds what its rules store, its CS fields too,
every other register is as before, the proposal is named and gone, and the reply waits for the save (16 R392, R395, R399). That the save
begins at once is the model's choice, and the order in which the items run its reading (notes/assumptions/9.md, 83.md). -/
def Obligations.CountersignApplies : Prop :=
  (∀ (p : Pkt) (s t : State) (x : Proposal), FwReady s → GoodHead 0x69 p → p.arg = 0 →
    p.pay = [(0 : BitVec 16) ++ x.id ++ x.digest] → authOf s p.ap ≠ 0 →
    (s.prot.props ++ s.prot.ended).find? (·.id == x.id) = some x → x.auth.toNat ≠ authOf s p.ap → s.cclk < x.until_ →
    runItems p.ap ((itemsOf 256 x.words).getD []) 0 (takenIn p s) = (none, t) →
    Calm t → t.fw.parked = [] →
    exec (.protCountersign p) s = .next (afterwards (applied (cmdOf 0x69 p s) x
      (getReg t 0x30000 != getReg s 0x30000 || getReg t 0x30004 != getReg s 0x30004)
      (((itemsOf 256 x.words).getD []).any fun y => fld y.1 63 56 == 0x5F) t))) ∧
  (∀ (p : Pkt) (s : State) (x : Proposal) (a : Nat) (i : RegInfo) (v : Reg), FwReady s → Settled s → GoodHead 0x69 p → p.arg = 0 →
    p.pay = [(0 : BitVec 16) ++ x.id ++ x.digest] → authOf s p.ap ≠ 0 →
    (s.prot.props ++ s.prot.ended).find? (·.id == x.id) = some x → x.auth.toNat ≠ authOf s p.ap → s.cclk < x.until_ →
    x.words = [0x4900000002000000, BitVec.ofNat 64 a, v ++ (0 : BitVec 32)] → a / 0x10000 = 3 → a ≠ 0x30000 → a ≠ 0x30004 → a ≠ 0x3000C →
    regInfo s.part.grade a = some i → i.kind = .fields → ownRule s p.ap a (getReg s a) (stored i .change (getReg s a) v) v = none →
    bindBad s = false → s.saves = [] →
    ∃ t, exec (.protCountersign p) s = .next t ∧ getReg t a = stored i .change (getReg s a) v ∧ (∀ b, b ≠ a → getReg t b = getReg s b) ∧
      t.prot.lastId = x.id ∧ t.prot.lastDigest = x.digest ∧ (∀ y ∈ t.prot.props, y.id ≠ x.id) ∧
      t.fw.parked = [⟨cmdOf 0x69 p s, .save⟩] ∧ t.replies = s.replies ∧ t.searches = s.searches ∧ t.cclk = s.cclk)

/-- RESETS AND START-UP (01 R14; 17 R402-R406, R411, R416): what each reset clears and keeps, with its cause and the straps it samples;
RESET_N low holds the core domain; the newest image is developed, or the Factory values where FACTORY_N asks for them or no image is valid,
and the part serves; tables kept are served again with every open or pending negative washed back (06 R160, R162); a quiesce and a channel
reset end. The strap sampling, what the core domain loses, the order of start-up and what a channel reset refuses are the model's reading
(notes/assumptions/31.md, 32.md, 33.md, 35.md). -/
def Obligations.ResetsAndStart : Prop :=
  ∀ (x : Straps) (s : State),
    (∃ t, exec (.powerOnReset x) s = .next t ∧ t.dev.st = .startup ∧ t.dev.cause = 0 ∧ t.dev.devId = x.cascId ∧
      t.dev.factoryStrap = !x.factoryN ∧ t.pins.smbAddr = x.smbAddr ∧ t.pins.vid = none ∧ t.aon = {} ∧ t.regs = [] ∧ t.cnt = [] ∧ t.sram = [] ∧ t.searches = [] ∧
      t.replies = [] ∧ t.tb = {} ∧ t.fw = {} ∧ t.cclk = 0 ∧ t.pending = s.pending ∧ (∀ c : Chn, (chan t c).rows = [] ∧ (chan t c).parts = [])) ∧
    (s.pins.resetN = true → tapHolds s = false →
      ∃ t, exec (.coldStart x) s = .next t ∧ t.dev.st = .startup ∧ t.dev.cause = 1 ∧ t.dev.devId = x.cascId ∧ t.dev.tablesKept = false ∧
        t.pins.pwrGood = true ∧ t.aon = s.aon ∧ t.regs = [] ∧ t.cnt = [] ∧ t.sram = [] ∧ t.searches = [] ∧ t.replies = [] ∧
        (∀ c : Chn, (chan t c).rows = [] ∧ (chan t c).parts = [])) ∧
    (tapHolds s = false → s.dev.st ≠ .shutdown → s.aon.shut = false → s.dev.unstarted = true →
      ∃ t, exec (.warmReset x) s = .next t ∧ t.dev.st = .startup ∧ t.dev.cause = s.dev.cause ∧ t.dev.tablesKept = false ∧ t.sram = [] ∧
        t.regs = [] ∧ t.aon = s.aon ∧ (∀ c : Chn, (chan t c).rows = [] ∧ (chan t c).parts = [])) ∧
    (tapHolds s = false → s.dev.st ≠ .shutdown → s.aon.shut = false → s.dev.unstarted = false →
      ∃ t, exec (.warmReset x) s = .next t ∧ t.dev.st = .startup ∧ t.dev.cause = 2 ∧ t.dev.devId = x.cascId ∧ t.dev.tablesKept = true ∧
        t.pins.resetN = true ∧ t.aon = s.aon ∧ t.regs = [] ∧ t.cnt = [] ∧ t.searches = [] ∧ t.replies = [] ∧
        t.sram = (s.sram.filter fun y => arrayWord y.1) ∧ (∀ c : Chn, (chan t c).rows = (chan s c).rows)) ∧
    (s.dev.st ≠ .shutdown →
      ∃ t, exec .resetAssert s = .next t ∧ t.dev = { s.dev with st := .held } ∧ t.pins.resetN = false ∧ (∀ g : Fin 8, t.pg[g].st = .down) ∧
        t.pcie.up = false ∧ t.aon = s.aon ∧ t.regs = s.regs ∧ t.sram = s.sram ∧ t.ch = s.ch) ∧
    (∀ img : Option Image, s.dev.st = .startup → Calm { s with dev := { s.dev with st := .run } } →
      img = (if s.dev.factoryStrap then none else (newestImage s).map (·.2)) →
      (∀ c : Chn, (chan s c).copy = none ∧ (chan s c).proof = none ∧ (chan s c).pends = [] ∧ (chan s c).upd.job = none) →
      ∃ t, exec .latentImageDeveloped s = .next t ∧ t.dev = { s.dev with st := .run, developed := img.isSome } ∧
        t.regs = (img.map (·.regs)).getD [] ∧ t.log = (img.map (·.log)).getD {} ∧ t.fw.active = (img.map (·.fwSlot)).getD false ∧
        t.cclk = s.cclk ∧ (s.dev.tablesKept = false → t.remaps = (img.map (·.remaps)).getD []) ∧
        (s.dev.tablesKept = true → t.remaps = s.remaps ∧ ∀ l : Chn, leadOf t l = l → (chan t l).stamp = 0 ∧ (chan t l).stamps = [] ∧
          ∀ p : Nat, (mgetD (chan t l).parts p {}).live = (mgetD (chan s l).parts p {}).live ∧
            ((mgetD (chan t l).parts p {}).st = .steady ∨ (mgetD (chan t l).parts p {}).st = .washing))) ∧
    (∀ (c : Chn) (cmd : Cmd), Calm s → leadOf s c = c → (chan s c).draining = true → drained s c = true →
      s.fw.parked = [⟨cmd, .quiesce c⟩] → cmd.wq = none →
      ∃ t, exec (.quiesceDrainComplete c) s = .next t ∧ (chan t c).quiesced = true ∧ (chan t c).draining = false ∧ t.fw.parked = [] ∧
        t.replies = (replied cmd.op cmd.p cmd.id stOk 0 [] s.cclk s).replies ∧ t.regs = s.regs ∧ t.sram = s.sram ∧
        (∀ m : Chn, (chan t m).rows = (chan s m).rows)) ∧
    (∀ (c : Chn) (cmd : Cmd), Calm s → leadOf s c = c → (chan s c).resetting = some cmd → (chan s c).resetDone = true →
      washing s c = false → s.fw.parked = [⟨cmd, .chReset c⟩] → cmd.wq = none →
      ∃ t, exec (.channelResetComplete c) s = .next t ∧ (chan t c).resetting = none ∧ t.fw.parked = [] ∧
        t.replies = (replied cmd.op cmd.p cmd.id stOk 0 [] s.cclk s).replies ∧ t.regs = s.regs ∧ t.sram = s.sram ∧
        (∀ m : Chn, (chan t m).rows = (chan s m).rows))

/-- RESET_N WHILE `shut` (17 R404): a release while the part was shut down clears the Array domain as a cold start does, with cause 0b100;
a pulse while the watchdog reads 115 degrees or more leaves the part in shutdown, its straps sampled all the same (01 R14). When the
straps are sampled, and that the readings kept are the watchdog's, is the model's reading (notes/assumptions/31.md). -/
def Obligations.ResetWhileShut : Prop :=
  ∀ (x : Straps) (s : State), tapHolds s = false → s.aon.shut = true →
    ((s.dev.st = .shutdown → ∀ v ∈ s.dev.temps, sgn v < 460) →
      ∃ t, exec (.warmReset x) s = .next t ∧ t.dev.cause = 4 ∧ t.dev.st = .startup ∧ t.dev.tablesKept = false ∧ t.regs = [] ∧ t.sram = [] ∧
        (∀ c : Chn, (chan t c).rows = [] ∧ (chan t c).parts = []) ∧ t.aon = s.aon ∧ t.dev.devId = x.cascId) ∧
    (s.dev.st = .shutdown → (∃ v ∈ s.dev.temps, 460 ≤ sgn v) →
      ∃ u, exec .resetAssert s = .next u ∧ u.dev.st = .shutdown ∧ u.sram = s.sram ∧ u.ch = s.ch ∧
        exec (.warmReset x) u = .next { s with
          dev := { s.dev with devId := x.cascId, factoryStrap := !x.factoryN }
          pins := { s.pins with resetN := true, aliveLow := !x.aliveN, smbAddr := x.smbAddr, factoryN := x.factoryN } })

/-- SMBUS AND THE TEST ACCESS PORT (18 R434-R437): each read command answers its bytes, STATE and the alert response release the alert,
WAKE wakes the part, the TAP takes its instructions, of which the register selected follows, one that drives pins holds the core domain, and
MGMT_ACC accesses a register. The PEC, what an access captures and when the instruction takes effect are PRESUMED (notes/assumptions/37.md,
38.md). -/
def Obligations.ServiceAccess : Prop :=
  ∀ s : State, Calm s →
    (exec .temp s = .next (afterwards (answerSmb (smbHead s 1 none) [(junction s).setWidth 8, (junction s).extractLsb' 8 8] s))) ∧
    (∃ t v, exec .state s = .next t ∧ t.svc.smb = [v] ∧ t.pins = { s.pins with alertLow := false } ∧ fld v 7 6 = 2 ∧
      fld v 5 4 = s.dev.level.toNat ∧ bitAt v 3 = s.aon.shut ∧ bitAt v 2 = factoryState s ∧ bitAt v 1 = ringServes s ∧ bitAt v 0 = s.fw.up ∧
      t.regs = s.regs ∧ t.sram = s.sram) ∧
    (∀ b3 b2 b1 b0 : Byte, b3 ++ b2 ++ b1 ++ b0 = devIdReg s → exec .ident s = .next (afterwards (answerSmb (smbHead s 3 (some 4)) [b3, b2, b1, b0] s))) ∧
    (exec .wake s = .next (afterwards s)) ∧
    (∀ (u : State), u.dev.st = .darkroom → regB u 0x20130 30 = true →
      exec .wake u = .next { u with dev := { u.dev with st := .waking, wakeSrc := 4 }, pins := { u.pins with arrRet := false } }) ∧
    (∀ x : Temps, s.dev.temps = [x.t0, x.t1, x.t2, x.t3, x.t4, x.t5] →
      exec .temps s = .next (afterwards (answerSmb (smbHead s 5 (some 12))
        [x.t0.extractLsb' 8 8, x.t0.setWidth 8, x.t1.extractLsb' 8 8, x.t1.setWidth 8, x.t2.extractLsb' 8 8, x.t2.setWidth 8,
         x.t3.extractLsb' 8 8, x.t3.setWidth 8, x.t4.extractLsb' 8 8, x.t4.setWidth 8, x.t5.extractLsb' 8 8, x.t5.setWidth 8] s))) ∧
    (∃ t, exec .alertResponseRead s = .next t ∧ t.pins = { s.pins with alertLow := false } ∧
      t.svc.smb = (if s.pins.alertLow then [BitVec.ofNat 8 ((0x4C + s.pins.smbAddr.toNat) * 2)] else []) ∧ t.regs = s.regs ∧ t.sram = s.sram) ∧
    (∀ x : Straps, tapHolds s = false →
      exec (.tapReset x) s = .next (afterwards { s with svc := { s.svc with ir := 0x01 } }) ∧
        tapRegister { s with svc := { s.svc with ir := 0x01 } } = (32, 0x12816A6D)) ∧
    (∀ (x : Straps) (code : Byte), tapHolds s = false → code ∉ ([0x00, 0x02, 0x03, 0x04, 0x05, 0x06] : List Byte) →
      exec (.extestInstruction code x) s = .next (afterwards { s with svc := { s.svc with ir := tapCode code } })) ∧
    (∀ x : Straps, tapHolds s = false →
      ∃ t, exec (.extestInstruction 0x02 x) s = .next t ∧ t.svc.ir = 0x02 ∧ (tapRegister t).1 = 320 ∧ t.svc.bsr.getLsbD 2 = s.pins.resetN ∧
        t.dev = s.dev ∧ t.regs = s.regs ∧ t.sram = s.sram) ∧
    (∀ (x : Straps) (code : Byte), code ∈ ([0x00, 0x03, 0x04, 0x05, 0x06] : List Byte) →
      ∃ t, exec (.extestInstruction code x) s = .next t ∧ t.svc.ir = code ∧ t.dev = { s.dev with st := .held } ∧
        (∀ g : Fin 8, t.pg[g].st = .down) ∧
        t.regs = s.regs ∧ t.sram = s.sram ∧ t.ch = s.ch) ∧
    (∀ (a v : Reg) (i : RegInfo), s.svc.ir = 0x20 → Settled s → mbxAddr a.toNat = false → regInfo s.part.grade a.toNat = some i →
      i.kind = .fields →
      (a.toNat ≠ 0x10020 → ¬(0x48000 ≤ a.toNat ∧ a.toNat < 0x48100) →
        ∃ t, exec (.mgmtAcc false a v) s = .next t ∧ t.svc.done = true ∧ t.svc.status = stOk ∧
          t.svc.rdata = regValue (settleHold s) 8 a.toNat i ∧ t.regs = s.regs ∧ t.sram = s.sram ∧ t.replies = s.replies) ∧
      (a.toNat / 0x10000 = 5 → a.toNat < 0x51000 → Accepted a.toNat v s →
        ∃ t, exec (.mgmtAcc true a v) s = .next t ∧ t.svc.done = true ∧ t.svc.status = stOk ∧
          getReg t a.toNat = ((getReg s a.toNat &&& ~~~i.rw) ||| (v &&& i.rw)) &&& ~~~(i.w1c &&& v) ∧
          (∀ b, b ≠ a.toNat → getReg t b = getReg s b) ∧ t.sram = s.sram ∧ t.replies = s.replies))
end

