-- ==== Sys2Proof/Laws/Tables.lean ====
section
/-! SUPPORT. The sparse tables: a read after a write, and that each operation keeps the keys strictly rising. -/

namespace Sys2Proof.Laws
open Sys2Proof.Machine

variable {α : Type}

@[simp] theorem mget_mset_same (m : List (Nat × α)) (k : Nat) (v : α) : mget (mset m k v) k = some v := by
  induction m with
  | nil => simp [mset, mget]
  | cons x t ih =>
    rw [mset]
    split
    · simp [mget]
    · split
      · simp [mget]
      · rename_i h; rw [mget, if_neg h, ih]

theorem mget_mset_other (m : List (Nat × α)) {k j : Nat} (h : j ≠ k) (v : α) : mget (mset m k v) j = mget m j := by
  induction m with
  | nil => simp [mset, mget, Ne.symm h]
  | cons x t ih =>
    rw [mset]
    split
    · rw [mget, if_neg (Ne.symm h)]
    · split
      · rename_i e; subst e; rw [mget, mget, if_neg (Ne.symm h), if_neg (Ne.symm h)]
      · rw [mget, mget, ih]

@[simp] theorem mget_mdel_same (m : List (Nat × α)) (k : Nat) : mget (mdel m k) k = none := by
  induction m with
  | nil => rfl
  | cons x t ih =>
    rw [mdel]
    split
    · exact ih
    · rename_i h; rw [mget, if_neg h, ih]

theorem mget_mdel_other (m : List (Nat × α)) {k j : Nat} (h : j ≠ k) : mget (mdel m k) j = mget m j := by
  induction m with
  | nil => rfl
  | cons x t ih =>
    rw [mdel]
    split
    · rename_i e; subst e; rw [ih, mget, if_neg (Ne.symm h)]
    · rw [mget, mget, ih]

/-- A read of a table filtered by key. -/
theorem mget_filter (f : Nat → Bool) (m : List (Nat × α)) (k : Nat) :
    mget (m.filter fun x => f x.1) k = if f k then mget m k else none := by
  induction m with
  | nil => simp [mget]
  | cons x t ih =>
    obtain ⟨a, v⟩ := x
    rw [List.filter_cons]
    by_cases h : a = k
    · subst h; by_cases hf : f a <;> simp [mget, hf, ih]
    · by_cases hf : f a <;> simp [mget, hf, ih, h]

/-- A read of a table whose values are mapped. -/
theorem mget_map {β : Type} (g : Nat → α → β) (m : List (Nat × α)) (k : Nat) :
    mget (m.map fun x => (x.1, g x.1 x.2)) k = (mget m k).map (g k) := by
  induction m with
  | nil => rfl
  | cons x t ih =>
    obtain ⟨a, v⟩ := x
    by_cases h : a = k
    · subst h; simp [mget]
    · simp [mget, h, ih]

/-- Strictly rising keys, as a statement about every two entries. -/
theorem mwf_iff (m : List (Nat × α)) : mwf m = true ↔ m.Pairwise fun x y => x.1 < y.1 := by
  induction m with
  | nil => simp [mwf]
  | cons x t ih =>
    cases t with
    | nil => simp [mwf]
    | cons y u =>
      obtain ⟨a, v⟩ := x
      obtain ⟨b, w⟩ := y
      rw [mwf, Bool.and_eq_true, ih, decide_eq_true_eq, List.pairwise_cons (a := (a, v))]
      refine ⟨fun ⟨h, k⟩ => ⟨fun z hz => ?_, k⟩, fun ⟨h, k⟩ => ⟨h _ (List.mem_cons_self ..), k⟩⟩
      rcases List.mem_cons.mp hz with rfl | hz
      · exact h
      · exact Nat.lt_trans h ((List.pairwise_cons.mp k).1 z hz)

theorem mem_mset {m : List (Nat × α)} {k : Nat} {v : α} {x : Nat × α} (h : x ∈ mset m k v) : x = (k, v) ∨ x ∈ m := by
  induction m with
  | nil => exact Or.inl (List.mem_singleton.mp h)
  | cons y t ih =>
    rw [mset] at h
    split at h
    · rcases List.mem_cons.mp h with h | h
      · exact Or.inl h
      · exact Or.inr h
    · split at h
      · rcases List.mem_cons.mp h with h | h
        · exact Or.inl h
        · exact Or.inr (List.mem_cons_of_mem _ h)
      · rcases List.mem_cons.mp h with h | h
        · exact Or.inr (h ▸ List.mem_cons_self ..)
        · rcases ih h with h | h
          · exact Or.inl h
          · exact Or.inr (List.mem_cons_of_mem _ h)

theorem mset_mwf {m : List (Nat × α)} (h : mwf m = true) (k : Nat) (v : α) : mwf (mset m k v) = true := by
  rw [mwf_iff] at h ⊢
  induction m with
  | nil => exact List.pairwise_singleton ..
  | cons y t ih =>
    obtain ⟨hy, ht⟩ := List.pairwise_cons.mp h
    rw [mset]
    split
    · rename_i hk
      refine List.pairwise_cons.mpr ⟨fun z hz => ?_, h⟩
      rcases List.mem_cons.mp hz with rfl | hz
      · exact hk
      · exact Nat.lt_trans hk (hy z hz)
    · split
      · rename_i e; subst e; exact List.pairwise_cons.mpr ⟨fun z hz => hy z hz, ht⟩
      · rename_i h1 h2
        refine List.pairwise_cons.mpr ⟨fun z hz => ?_, ih ht⟩
        rcases mem_mset hz with rfl | hz
        · exact Nat.lt_of_le_of_ne (Nat.le_of_not_lt h1) h2
        · exact hy z hz

theorem mdel_sublist (m : List (Nat × α)) (k : Nat) : (mdel m k).Sublist m := by
  induction m with
  | nil => exact List.Sublist.refl _
  | cons y t ih =>
    rw [mdel]
    split
    · exact ih.cons _
    · exact ih.cons_cons _

theorem mdel_mwf {m : List (Nat × α)} (h : mwf m = true) (k : Nat) : mwf (mdel m k) = true :=
  (mwf_iff _).mpr (((mwf_iff _).mp h).sublist (mdel_sublist m k))

theorem filter_mwf {m : List (Nat × α)} (h : mwf m = true) (f : Nat × α → Bool) : mwf (m.filter f) = true :=
  (mwf_iff _).mpr (((mwf_iff _).mp h).sublist List.filter_sublist)

theorem map_mwf {β : Type} {m : List (Nat × α)} (h : mwf m = true) (g : Nat × α → β) : mwf (m.map fun x => (x.1, g x)) = true :=
  (mwf_iff _).mpr (List.pairwise_map.mpr ((mwf_iff _).mp h))

/-- Tables in canonical form with the same reads are equal. -/
theorem mwf_ext {m n : List (Nat × α)} (hm : mwf m = true) (hn : mwf n = true) (h : ∀ k, mget m k = mget n k) : m = n := by
  rw [mwf_iff] at hm hn
  have miss : ∀ {l : List (Nat × α)} {k : Nat}, (∀ x ∈ l, k < x.1) → mget l k = none := by
    intro l k hl
    induction l with
    | nil => rfl
    | cons x t ih =>
      rw [mget, if_neg (Nat.ne_of_gt (hl x (List.mem_cons_self ..))), ih fun y hy => hl y (List.mem_cons_of_mem _ hy)]
  induction m generalizing n with
  | nil =>
    cases n with
    | nil => rfl
    | cons y u => have := h y.1; simp [mget] at this
  | cons x t ih =>
    obtain ⟨hx, ht⟩ := List.pairwise_cons.mp hm
    cases n with
    | nil => have := h x.1; simp [mget] at this
    | cons y u =>
      obtain ⟨hy, hu⟩ := List.pairwise_cons.mp hn
      obtain ⟨a, v⟩ := x
      obtain ⟨b, w⟩ := y
      have hab : a = b := by
        rcases Nat.lt_trichotomy a b with hl | he | hl
        · have h1 := h a
          rw [mget, if_pos rfl, mget, if_neg (Nat.ne_of_gt hl), miss fun z hz => Nat.lt_trans hl (hy z hz)] at h1
          cases h1
        · exact he
        · have h1 := h b
          rw [mget, if_neg (Nat.ne_of_gt hl), miss fun z hz => Nat.lt_trans hl (hx z hz), mget, if_pos rfl] at h1
          cases h1
      subst hab
      have hv : v = w := by have h1 := h a; simpa [mget] using h1
      subst hv
      rw [ih ht hu fun k => ?_]
      by_cases hk : a = k
      · subst hk; rw [miss hx, miss hy]
      · have h1 := h k; rwa [mget, if_neg hk, mget, if_neg hk] at h1

end Sys2Proof.Laws
end

