-- ==== Sys2Proof/Laws/State.lean ====
section
/-! SUPPORT. One lemma per field per named update of the state: what each leaves as it was, and what it sets. -/

namespace Sys2Proof.Laws
open Sys2Proof.Machine

/-! ### `modChan` -/

@[simp] theorem modChan_pending (c : Chn) (f : Chan → Chan) (s : State) : (modChan c f s).pending = s.pending := rfl
@[simp] theorem modChan_free (c : Chn) (f : Chan → Chan) (s : State) : (modChan c f s).free = s.free := rfl
@[simp] theorem modChan_part (c : Chn) (f : Chan → Chan) (s : State) : (modChan c f s).part = s.part := rfl
@[simp] theorem modChan_pins (c : Chn) (f : Chan → Chan) (s : State) : (modChan c f s).pins = s.pins := rfl
@[simp] theorem modChan_dev (c : Chn) (f : Chan → Chan) (s : State) : (modChan c f s).dev = s.dev := rfl
@[simp] theorem modChan_aon (c : Chn) (f : Chan → Chan) (s : State) : (modChan c f s).aon = s.aon := rfl
@[simp] theorem modChan_cclk (c : Chn) (f : Chan → Chan) (s : State) : (modChan c f s).cclk = s.cclk := rfl
@[simp] theorem modChan_nextId (c : Chn) (f : Chan → Chan) (s : State) : (modChan c f s).nextId = s.nextId := rfl
@[simp] theorem modChan_tb (c : Chn) (f : Chan → Chan) (s : State) : (modChan c f s).tb = s.tb := rfl
@[simp] theorem modChan_regs (c : Chn) (f : Chan → Chan) (s : State) : (modChan c f s).regs = s.regs := rfl
@[simp] theorem modChan_cnt (c : Chn) (f : Chan → Chan) (s : State) : (modChan c f s).cnt = s.cnt := rfl
@[simp] theorem modChan_stat (c : Chn) (f : Chan → Chan) (s : State) : (modChan c f s).stat = s.stat := rfl
@[simp] theorem modChan_shadow (c : Chn) (f : Chan → Chan) (s : State) : (modChan c f s).shadow = s.shadow := rfl
@[simp] theorem modChan_cfgBad (c : Chn) (f : Chan → Chan) (s : State) : (modChan c f s).cfgBad = s.cfgBad := rfl
@[simp] theorem modChan_pclsWas (c : Chn) (f : Chan → Chan) (s : State) : (modChan c f s).pclsWas = s.pclsWas := rfl
@[simp] theorem modChan_tplWas (c : Chn) (f : Chan → Chan) (s : State) : (modChan c f s).tplWas = s.tplWas := rfl
@[simp] theorem modChan_searches (c : Chn) (f : Chan → Chan) (s : State) : (modChan c f s).searches = s.searches := rfl
@[simp] theorem modChan_replies (c : Chn) (f : Chan → Chan) (s : State) : (modChan c f s).replies = s.replies := rfl
@[simp] theorem modChan_sram (c : Chn) (f : Chan → Chan) (s : State) : (modChan c f s).sram = s.sram := rfl
@[simp] theorem modChan_vbad (c : Chn) (f : Chan → Chan) (s : State) : (modChan c f s).vbad = s.vbad := rfl
@[simp] theorem modChan_poisonSeen (c : Chn) (f : Chan → Chan) (s : State) : (modChan c f s).poisonSeen = s.poisonSeen := rfl
@[simp] theorem modChan_lentWait (c : Chn) (f : Chan → Chan) (s : State) : (modChan c f s).lentWait = s.lentWait := rfl
@[simp] theorem modChan_bgCur (c : Chn) (f : Chan → Chan) (s : State) : (modChan c f s).bgCur = s.bgCur := rfl
@[simp] theorem modChan_bgWait (c : Chn) (f : Chan → Chan) (s : State) : (modChan c f s).bgWait = s.bgWait := rfl
@[simp] theorem modChan_qm (c : Chn) (f : Chan → Chan) (s : State) : (modChan c f s).qm = s.qm := rfl
@[simp] theorem modChan_xpo (c : Chn) (f : Chan → Chan) (s : State) : (modChan c f s).xpo = s.xpo := rfl
@[simp] theorem modChan_se (c : Chn) (f : Chan → Chan) (s : State) : (modChan c f s).se = s.se := rfl
@[simp] theorem modChan_wdNext (c : Chn) (f : Chan → Chan) (s : State) : (modChan c f s).wdNext = s.wdNext := rfl
@[simp] theorem modChan_wdAt (c : Chn) (f : Chan → Chan) (s : State) : (modChan c f s).wdAt = s.wdAt := rfl
@[simp] theorem modChan_wdDisc (c : Chn) (f : Chan → Chan) (s : State) : (modChan c f s).wdDisc = s.wdDisc := rfl
@[simp] theorem modChan_bgNext (c : Chn) (f : Chan → Chan) (s : State) : (modChan c f s).bgNext = s.bgNext := rfl
@[simp] theorem modChan_bgAt (c : Chn) (f : Chan → Chan) (s : State) : (modChan c f s).bgAt = s.bgAt := rfl
@[simp] theorem modChan_bgPass (c : Chn) (f : Chan → Chan) (s : State) : (modChan c f s).bgPass = s.bgPass := rfl
@[simp] theorem modChan_pool (c : Chn) (f : Chan → Chan) (s : State) : (modChan c f s).pool = s.pool := rfl
@[simp] theorem modChan_mbx (c : Chn) (f : Chan → Chan) (s : State) : (modChan c f s).mbx = s.mbx := rfl
@[simp] theorem modChan_pg (c : Chn) (f : Chan → Chan) (s : State) : (modChan c f s).pg = s.pg := rfl
@[simp] theorem modChan_ring (c : Chn) (f : Chan → Chan) (s : State) : (modChan c f s).ring = s.ring := rfl
@[simp] theorem modChan_pcie (c : Chn) (f : Chan → Chan) (s : State) : (modChan c f s).pcie = s.pcie := rfl
@[simp] theorem modChan_brx (c : Chn) (f : Chan → Chan) (s : State) : (modChan c f s).brx = s.brx := rfl
@[simp] theorem modChan_fw (c : Chn) (f : Chan → Chan) (s : State) : (modChan c f s).fw = s.fw := rfl
@[simp] theorem modChan_prot (c : Chn) (f : Chan → Chan) (s : State) : (modChan c f s).prot = s.prot := rfl
@[simp] theorem modChan_saves (c : Chn) (f : Chan → Chan) (s : State) : (modChan c f s).saves = s.saves := rfl
@[simp] theorem modChan_log (c : Chn) (f : Chan → Chan) (s : State) : (modChan c f s).log = s.log := rfl
@[simp] theorem modChan_healQ (c : Chn) (f : Chan → Chan) (s : State) : (modChan c f s).healQ = s.healQ := rfl
@[simp] theorem modChan_sramProof (c : Chn) (f : Chan → Chan) (s : State) : (modChan c f s).sramProof = s.sramProof := rfl
@[simp] theorem modChan_remaps (c : Chn) (f : Chan → Chan) (s : State) : (modChan c f s).remaps = s.remaps := rfl
@[simp] theorem modChan_remapRun (c : Chn) (f : Chan → Chan) (s : State) : (modChan c f s).remapRun = s.remapRun := rfl
@[simp] theorem modChan_svc (c : Chn) (f : Chan → Chan) (s : State) : (modChan c f s).svc = s.svc := rfl

/-! ### `modPg` -/

@[simp] theorem modPg_pending (g : Fin 8) (f : Pg → Pg) (s : State) : (modPg g f s).pending = s.pending := rfl
@[simp] theorem modPg_free (g : Fin 8) (f : Pg → Pg) (s : State) : (modPg g f s).free = s.free := rfl
@[simp] theorem modPg_part (g : Fin 8) (f : Pg → Pg) (s : State) : (modPg g f s).part = s.part := rfl
@[simp] theorem modPg_pins (g : Fin 8) (f : Pg → Pg) (s : State) : (modPg g f s).pins = s.pins := rfl
@[simp] theorem modPg_dev (g : Fin 8) (f : Pg → Pg) (s : State) : (modPg g f s).dev = s.dev := rfl
@[simp] theorem modPg_aon (g : Fin 8) (f : Pg → Pg) (s : State) : (modPg g f s).aon = s.aon := rfl
@[simp] theorem modPg_cclk (g : Fin 8) (f : Pg → Pg) (s : State) : (modPg g f s).cclk = s.cclk := rfl
@[simp] theorem modPg_nextId (g : Fin 8) (f : Pg → Pg) (s : State) : (modPg g f s).nextId = s.nextId := rfl
@[simp] theorem modPg_tb (g : Fin 8) (f : Pg → Pg) (s : State) : (modPg g f s).tb = s.tb := rfl
@[simp] theorem modPg_regs (g : Fin 8) (f : Pg → Pg) (s : State) : (modPg g f s).regs = s.regs := rfl
@[simp] theorem modPg_cnt (g : Fin 8) (f : Pg → Pg) (s : State) : (modPg g f s).cnt = s.cnt := rfl
@[simp] theorem modPg_stat (g : Fin 8) (f : Pg → Pg) (s : State) : (modPg g f s).stat = s.stat := rfl
@[simp] theorem modPg_shadow (g : Fin 8) (f : Pg → Pg) (s : State) : (modPg g f s).shadow = s.shadow := rfl
@[simp] theorem modPg_cfgBad (g : Fin 8) (f : Pg → Pg) (s : State) : (modPg g f s).cfgBad = s.cfgBad := rfl
@[simp] theorem modPg_pclsWas (g : Fin 8) (f : Pg → Pg) (s : State) : (modPg g f s).pclsWas = s.pclsWas := rfl
@[simp] theorem modPg_tplWas (g : Fin 8) (f : Pg → Pg) (s : State) : (modPg g f s).tplWas = s.tplWas := rfl
@[simp] theorem modPg_ch (g : Fin 8) (f : Pg → Pg) (s : State) : (modPg g f s).ch = s.ch := rfl
@[simp] theorem modPg_searches (g : Fin 8) (f : Pg → Pg) (s : State) : (modPg g f s).searches = s.searches := rfl
@[simp] theorem modPg_replies (g : Fin 8) (f : Pg → Pg) (s : State) : (modPg g f s).replies = s.replies := rfl
@[simp] theorem modPg_sram (g : Fin 8) (f : Pg → Pg) (s : State) : (modPg g f s).sram = s.sram := rfl
@[simp] theorem modPg_vbad (g : Fin 8) (f : Pg → Pg) (s : State) : (modPg g f s).vbad = s.vbad := rfl
@[simp] theorem modPg_poisonSeen (g : Fin 8) (f : Pg → Pg) (s : State) : (modPg g f s).poisonSeen = s.poisonSeen := rfl
@[simp] theorem modPg_lentWait (g : Fin 8) (f : Pg → Pg) (s : State) : (modPg g f s).lentWait = s.lentWait := rfl
@[simp] theorem modPg_bgCur (g : Fin 8) (f : Pg → Pg) (s : State) : (modPg g f s).bgCur = s.bgCur := rfl
@[simp] theorem modPg_bgWait (g : Fin 8) (f : Pg → Pg) (s : State) : (modPg g f s).bgWait = s.bgWait := rfl
@[simp] theorem modPg_qm (g : Fin 8) (f : Pg → Pg) (s : State) : (modPg g f s).qm = s.qm := rfl
@[simp] theorem modPg_xpo (g : Fin 8) (f : Pg → Pg) (s : State) : (modPg g f s).xpo = s.xpo := rfl
@[simp] theorem modPg_se (g : Fin 8) (f : Pg → Pg) (s : State) : (modPg g f s).se = s.se := rfl
@[simp] theorem modPg_wdNext (g : Fin 8) (f : Pg → Pg) (s : State) : (modPg g f s).wdNext = s.wdNext := rfl
@[simp] theorem modPg_wdAt (g : Fin 8) (f : Pg → Pg) (s : State) : (modPg g f s).wdAt = s.wdAt := rfl
@[simp] theorem modPg_wdDisc (g : Fin 8) (f : Pg → Pg) (s : State) : (modPg g f s).wdDisc = s.wdDisc := rfl
@[simp] theorem modPg_bgNext (g : Fin 8) (f : Pg → Pg) (s : State) : (modPg g f s).bgNext = s.bgNext := rfl
@[simp] theorem modPg_bgAt (g : Fin 8) (f : Pg → Pg) (s : State) : (modPg g f s).bgAt = s.bgAt := rfl
@[simp] theorem modPg_bgPass (g : Fin 8) (f : Pg → Pg) (s : State) : (modPg g f s).bgPass = s.bgPass := rfl
@[simp] theorem modPg_pool (g : Fin 8) (f : Pg → Pg) (s : State) : (modPg g f s).pool = s.pool := rfl
@[simp] theorem modPg_mbx (g : Fin 8) (f : Pg → Pg) (s : State) : (modPg g f s).mbx = s.mbx := rfl
@[simp] theorem modPg_ring (g : Fin 8) (f : Pg → Pg) (s : State) : (modPg g f s).ring = s.ring := rfl
@[simp] theorem modPg_pcie (g : Fin 8) (f : Pg → Pg) (s : State) : (modPg g f s).pcie = s.pcie := rfl
@[simp] theorem modPg_brx (g : Fin 8) (f : Pg → Pg) (s : State) : (modPg g f s).brx = s.brx := rfl
@[simp] theorem modPg_fw (g : Fin 8) (f : Pg → Pg) (s : State) : (modPg g f s).fw = s.fw := rfl
@[simp] theorem modPg_prot (g : Fin 8) (f : Pg → Pg) (s : State) : (modPg g f s).prot = s.prot := rfl
@[simp] theorem modPg_saves (g : Fin 8) (f : Pg → Pg) (s : State) : (modPg g f s).saves = s.saves := rfl
@[simp] theorem modPg_log (g : Fin 8) (f : Pg → Pg) (s : State) : (modPg g f s).log = s.log := rfl
@[simp] theorem modPg_healQ (g : Fin 8) (f : Pg → Pg) (s : State) : (modPg g f s).healQ = s.healQ := rfl
@[simp] theorem modPg_sramProof (g : Fin 8) (f : Pg → Pg) (s : State) : (modPg g f s).sramProof = s.sramProof := rfl
@[simp] theorem modPg_remaps (g : Fin 8) (f : Pg → Pg) (s : State) : (modPg g f s).remaps = s.remaps := rfl
@[simp] theorem modPg_remapRun (g : Fin 8) (f : Pg → Pg) (s : State) : (modPg g f s).remapRun = s.remapRun := rfl
@[simp] theorem modPg_svc (g : Fin 8) (f : Pg → Pg) (s : State) : (modPg g f s).svc = s.svc := rfl

/-! ### `setReg` -/

@[simp] theorem setReg_pending (a : Nat) (v : Reg) (s : State) : (setReg a v s).pending = s.pending := rfl
@[simp] theorem setReg_free (a : Nat) (v : Reg) (s : State) : (setReg a v s).free = s.free := rfl
@[simp] theorem setReg_part (a : Nat) (v : Reg) (s : State) : (setReg a v s).part = s.part := rfl
@[simp] theorem setReg_pins (a : Nat) (v : Reg) (s : State) : (setReg a v s).pins = s.pins := rfl
@[simp] theorem setReg_dev (a : Nat) (v : Reg) (s : State) : (setReg a v s).dev = s.dev := rfl
@[simp] theorem setReg_aon (a : Nat) (v : Reg) (s : State) : (setReg a v s).aon = s.aon := rfl
@[simp] theorem setReg_cclk (a : Nat) (v : Reg) (s : State) : (setReg a v s).cclk = s.cclk := rfl
@[simp] theorem setReg_nextId (a : Nat) (v : Reg) (s : State) : (setReg a v s).nextId = s.nextId := rfl
@[simp] theorem setReg_tb (a : Nat) (v : Reg) (s : State) : (setReg a v s).tb = s.tb := rfl
@[simp] theorem setReg_cnt (a : Nat) (v : Reg) (s : State) : (setReg a v s).cnt = s.cnt := rfl
@[simp] theorem setReg_stat (a : Nat) (v : Reg) (s : State) : (setReg a v s).stat = s.stat := rfl
@[simp] theorem setReg_shadow (a : Nat) (v : Reg) (s : State) : (setReg a v s).shadow = s.shadow := rfl
@[simp] theorem setReg_cfgBad (a : Nat) (v : Reg) (s : State) : (setReg a v s).cfgBad = s.cfgBad := rfl
@[simp] theorem setReg_pclsWas (a : Nat) (v : Reg) (s : State) : (setReg a v s).pclsWas = s.pclsWas := rfl
@[simp] theorem setReg_tplWas (a : Nat) (v : Reg) (s : State) : (setReg a v s).tplWas = s.tplWas := rfl
@[simp] theorem setReg_ch (a : Nat) (v : Reg) (s : State) : (setReg a v s).ch = s.ch := rfl
@[simp] theorem setReg_searches (a : Nat) (v : Reg) (s : State) : (setReg a v s).searches = s.searches := rfl
@[simp] theorem setReg_replies (a : Nat) (v : Reg) (s : State) : (setReg a v s).replies = s.replies := rfl
@[simp] theorem setReg_sram (a : Nat) (v : Reg) (s : State) : (setReg a v s).sram = s.sram := rfl
@[simp] theorem setReg_vbad (a : Nat) (v : Reg) (s : State) : (setReg a v s).vbad = s.vbad := rfl
@[simp] theorem setReg_poisonSeen (a : Nat) (v : Reg) (s : State) : (setReg a v s).poisonSeen = s.poisonSeen := rfl
@[simp] theorem setReg_lentWait (a : Nat) (v : Reg) (s : State) : (setReg a v s).lentWait = s.lentWait := rfl
@[simp] theorem setReg_bgCur (a : Nat) (v : Reg) (s : State) : (setReg a v s).bgCur = s.bgCur := rfl
@[simp] theorem setReg_bgWait (a : Nat) (v : Reg) (s : State) : (setReg a v s).bgWait = s.bgWait := rfl
@[simp] theorem setReg_qm (a : Nat) (v : Reg) (s : State) : (setReg a v s).qm = s.qm := rfl
@[simp] theorem setReg_xpo (a : Nat) (v : Reg) (s : State) : (setReg a v s).xpo = s.xpo := rfl
@[simp] theorem setReg_se (a : Nat) (v : Reg) (s : State) : (setReg a v s).se = s.se := rfl
@[simp] theorem setReg_wdNext (a : Nat) (v : Reg) (s : State) : (setReg a v s).wdNext = s.wdNext := rfl
@[simp] theorem setReg_wdAt (a : Nat) (v : Reg) (s : State) : (setReg a v s).wdAt = s.wdAt := rfl
@[simp] theorem setReg_wdDisc (a : Nat) (v : Reg) (s : State) : (setReg a v s).wdDisc = s.wdDisc := rfl
@[simp] theorem setReg_bgNext (a : Nat) (v : Reg) (s : State) : (setReg a v s).bgNext = s.bgNext := rfl
@[simp] theorem setReg_bgAt (a : Nat) (v : Reg) (s : State) : (setReg a v s).bgAt = s.bgAt := rfl
@[simp] theorem setReg_bgPass (a : Nat) (v : Reg) (s : State) : (setReg a v s).bgPass = s.bgPass := rfl
@[simp] theorem setReg_pool (a : Nat) (v : Reg) (s : State) : (setReg a v s).pool = s.pool := rfl
@[simp] theorem setReg_mbx (a : Nat) (v : Reg) (s : State) : (setReg a v s).mbx = s.mbx := rfl
@[simp] theorem setReg_pg (a : Nat) (v : Reg) (s : State) : (setReg a v s).pg = s.pg := rfl
@[simp] theorem setReg_ring (a : Nat) (v : Reg) (s : State) : (setReg a v s).ring = s.ring := rfl
@[simp] theorem setReg_pcie (a : Nat) (v : Reg) (s : State) : (setReg a v s).pcie = s.pcie := rfl
@[simp] theorem setReg_brx (a : Nat) (v : Reg) (s : State) : (setReg a v s).brx = s.brx := rfl
@[simp] theorem setReg_fw (a : Nat) (v : Reg) (s : State) : (setReg a v s).fw = s.fw := rfl
@[simp] theorem setReg_prot (a : Nat) (v : Reg) (s : State) : (setReg a v s).prot = s.prot := rfl
@[simp] theorem setReg_saves (a : Nat) (v : Reg) (s : State) : (setReg a v s).saves = s.saves := rfl
@[simp] theorem setReg_log (a : Nat) (v : Reg) (s : State) : (setReg a v s).log = s.log := rfl
@[simp] theorem setReg_healQ (a : Nat) (v : Reg) (s : State) : (setReg a v s).healQ = s.healQ := rfl
@[simp] theorem setReg_sramProof (a : Nat) (v : Reg) (s : State) : (setReg a v s).sramProof = s.sramProof := rfl
@[simp] theorem setReg_remaps (a : Nat) (v : Reg) (s : State) : (setReg a v s).remaps = s.remaps := rfl
@[simp] theorem setReg_remapRun (a : Nat) (v : Reg) (s : State) : (setReg a v s).remapRun = s.remapRun := rfl
@[simp] theorem setReg_svc (a : Nat) (v : Reg) (s : State) : (setReg a v s).svc = s.svc := rfl

/-! ### `addStat` -/

@[simp] theorem addStat_pending (a n : Nat) (s : State) : (addStat a n s).pending = s.pending := rfl
@[simp] theorem addStat_free (a n : Nat) (s : State) : (addStat a n s).free = s.free := rfl
@[simp] theorem addStat_part (a n : Nat) (s : State) : (addStat a n s).part = s.part := rfl
@[simp] theorem addStat_pins (a n : Nat) (s : State) : (addStat a n s).pins = s.pins := rfl
@[simp] theorem addStat_dev (a n : Nat) (s : State) : (addStat a n s).dev = s.dev := rfl
@[simp] theorem addStat_aon (a n : Nat) (s : State) : (addStat a n s).aon = s.aon := rfl
@[simp] theorem addStat_cclk (a n : Nat) (s : State) : (addStat a n s).cclk = s.cclk := rfl
@[simp] theorem addStat_nextId (a n : Nat) (s : State) : (addStat a n s).nextId = s.nextId := rfl
@[simp] theorem addStat_tb (a n : Nat) (s : State) : (addStat a n s).tb = s.tb := rfl
@[simp] theorem addStat_regs (a n : Nat) (s : State) : (addStat a n s).regs = s.regs := rfl
@[simp] theorem addStat_cnt (a n : Nat) (s : State) : (addStat a n s).cnt = s.cnt := rfl
@[simp] theorem addStat_shadow (a n : Nat) (s : State) : (addStat a n s).shadow = s.shadow := rfl
@[simp] theorem addStat_cfgBad (a n : Nat) (s : State) : (addStat a n s).cfgBad = s.cfgBad := rfl
@[simp] theorem addStat_pclsWas (a n : Nat) (s : State) : (addStat a n s).pclsWas = s.pclsWas := rfl
@[simp] theorem addStat_tplWas (a n : Nat) (s : State) : (addStat a n s).tplWas = s.tplWas := rfl
@[simp] theorem addStat_ch (a n : Nat) (s : State) : (addStat a n s).ch = s.ch := rfl
@[simp] theorem addStat_searches (a n : Nat) (s : State) : (addStat a n s).searches = s.searches := rfl
@[simp] theorem addStat_replies (a n : Nat) (s : State) : (addStat a n s).replies = s.replies := rfl
@[simp] theorem addStat_sram (a n : Nat) (s : State) : (addStat a n s).sram = s.sram := rfl
@[simp] theorem addStat_vbad (a n : Nat) (s : State) : (addStat a n s).vbad = s.vbad := rfl
@[simp] theorem addStat_poisonSeen (a n : Nat) (s : State) : (addStat a n s).poisonSeen = s.poisonSeen := rfl
@[simp] theorem addStat_lentWait (a n : Nat) (s : State) : (addStat a n s).lentWait = s.lentWait := rfl
@[simp] theorem addStat_bgCur (a n : Nat) (s : State) : (addStat a n s).bgCur = s.bgCur := rfl
@[simp] theorem addStat_bgWait (a n : Nat) (s : State) : (addStat a n s).bgWait = s.bgWait := rfl
@[simp] theorem addStat_qm (a n : Nat) (s : State) : (addStat a n s).qm = s.qm := rfl
@[simp] theorem addStat_xpo (a n : Nat) (s : State) : (addStat a n s).xpo = s.xpo := rfl
@[simp] theorem addStat_se (a n : Nat) (s : State) : (addStat a n s).se = s.se := rfl
@[simp] theorem addStat_wdNext (a n : Nat) (s : State) : (addStat a n s).wdNext = s.wdNext := rfl
@[simp] theorem addStat_wdAt (a n : Nat) (s : State) : (addStat a n s).wdAt = s.wdAt := rfl
@[simp] theorem addStat_wdDisc (a n : Nat) (s : State) : (addStat a n s).wdDisc = s.wdDisc := rfl
@[simp] theorem addStat_bgNext (a n : Nat) (s : State) : (addStat a n s).bgNext = s.bgNext := rfl
@[simp] theorem addStat_bgAt (a n : Nat) (s : State) : (addStat a n s).bgAt = s.bgAt := rfl
@[simp] theorem addStat_bgPass (a n : Nat) (s : State) : (addStat a n s).bgPass = s.bgPass := rfl
@[simp] theorem addStat_pool (a n : Nat) (s : State) : (addStat a n s).pool = s.pool := rfl
@[simp] theorem addStat_mbx (a n : Nat) (s : State) : (addStat a n s).mbx = s.mbx := rfl
@[simp] theorem addStat_pg (a n : Nat) (s : State) : (addStat a n s).pg = s.pg := rfl
@[simp] theorem addStat_ring (a n : Nat) (s : State) : (addStat a n s).ring = s.ring := rfl
@[simp] theorem addStat_pcie (a n : Nat) (s : State) : (addStat a n s).pcie = s.pcie := rfl
@[simp] theorem addStat_brx (a n : Nat) (s : State) : (addStat a n s).brx = s.brx := rfl
@[simp] theorem addStat_fw (a n : Nat) (s : State) : (addStat a n s).fw = s.fw := rfl
@[simp] theorem addStat_prot (a n : Nat) (s : State) : (addStat a n s).prot = s.prot := rfl
@[simp] theorem addStat_saves (a n : Nat) (s : State) : (addStat a n s).saves = s.saves := rfl
@[simp] theorem addStat_log (a n : Nat) (s : State) : (addStat a n s).log = s.log := rfl
@[simp] theorem addStat_healQ (a n : Nat) (s : State) : (addStat a n s).healQ = s.healQ := rfl
@[simp] theorem addStat_sramProof (a n : Nat) (s : State) : (addStat a n s).sramProof = s.sramProof := rfl
@[simp] theorem addStat_remaps (a n : Nat) (s : State) : (addStat a n s).remaps = s.remaps := rfl
@[simp] theorem addStat_remapRun (a n : Nat) (s : State) : (addStat a n s).remapRun = s.remapRun := rfl
@[simp] theorem addStat_svc (a n : Nat) (s : State) : (addStat a n s).svc = s.svc := rfl

/-! ### `setQDesc` -/

@[simp] theorem setQDesc_pending (q : Nat) (d : QDesc) (s : State) : (setQDesc q d s).pending = s.pending := rfl
@[simp] theorem setQDesc_free (q : Nat) (d : QDesc) (s : State) : (setQDesc q d s).free = s.free := rfl
@[simp] theorem setQDesc_part (q : Nat) (d : QDesc) (s : State) : (setQDesc q d s).part = s.part := rfl
@[simp] theorem setQDesc_pins (q : Nat) (d : QDesc) (s : State) : (setQDesc q d s).pins = s.pins := rfl
@[simp] theorem setQDesc_dev (q : Nat) (d : QDesc) (s : State) : (setQDesc q d s).dev = s.dev := rfl
@[simp] theorem setQDesc_aon (q : Nat) (d : QDesc) (s : State) : (setQDesc q d s).aon = s.aon := rfl
@[simp] theorem setQDesc_cclk (q : Nat) (d : QDesc) (s : State) : (setQDesc q d s).cclk = s.cclk := rfl
@[simp] theorem setQDesc_nextId (q : Nat) (d : QDesc) (s : State) : (setQDesc q d s).nextId = s.nextId := rfl
@[simp] theorem setQDesc_tb (q : Nat) (d : QDesc) (s : State) : (setQDesc q d s).tb = s.tb := rfl
@[simp] theorem setQDesc_regs (q : Nat) (d : QDesc) (s : State) : (setQDesc q d s).regs = s.regs := rfl
@[simp] theorem setQDesc_cnt (q : Nat) (d : QDesc) (s : State) : (setQDesc q d s).cnt = s.cnt := rfl
@[simp] theorem setQDesc_stat (q : Nat) (d : QDesc) (s : State) : (setQDesc q d s).stat = s.stat := rfl
@[simp] theorem setQDesc_shadow (q : Nat) (d : QDesc) (s : State) : (setQDesc q d s).shadow = s.shadow := rfl
@[simp] theorem setQDesc_cfgBad (q : Nat) (d : QDesc) (s : State) : (setQDesc q d s).cfgBad = s.cfgBad := rfl
@[simp] theorem setQDesc_pclsWas (q : Nat) (d : QDesc) (s : State) : (setQDesc q d s).pclsWas = s.pclsWas := rfl
@[simp] theorem setQDesc_tplWas (q : Nat) (d : QDesc) (s : State) : (setQDesc q d s).tplWas = s.tplWas := rfl
@[simp] theorem setQDesc_ch (q : Nat) (d : QDesc) (s : State) : (setQDesc q d s).ch = s.ch := rfl
@[simp] theorem setQDesc_searches (q : Nat) (d : QDesc) (s : State) : (setQDesc q d s).searches = s.searches := rfl
@[simp] theorem setQDesc_replies (q : Nat) (d : QDesc) (s : State) : (setQDesc q d s).replies = s.replies := rfl
@[simp] theorem setQDesc_sram (q : Nat) (d : QDesc) (s : State) : (setQDesc q d s).sram = s.sram := rfl
@[simp] theorem setQDesc_vbad (q : Nat) (d : QDesc) (s : State) : (setQDesc q d s).vbad = s.vbad := rfl
@[simp] theorem setQDesc_poisonSeen (q : Nat) (d : QDesc) (s : State) : (setQDesc q d s).poisonSeen = s.poisonSeen := rfl
@[simp] theorem setQDesc_lentWait (q : Nat) (d : QDesc) (s : State) : (setQDesc q d s).lentWait = s.lentWait := rfl
@[simp] theorem setQDesc_bgCur (q : Nat) (d : QDesc) (s : State) : (setQDesc q d s).bgCur = s.bgCur := rfl
@[simp] theorem setQDesc_bgWait (q : Nat) (d : QDesc) (s : State) : (setQDesc q d s).bgWait = s.bgWait := rfl
@[simp] theorem setQDesc_xpo (q : Nat) (d : QDesc) (s : State) : (setQDesc q d s).xpo = s.xpo := rfl
@[simp] theorem setQDesc_se (q : Nat) (d : QDesc) (s : State) : (setQDesc q d s).se = s.se := rfl
@[simp] theorem setQDesc_wdNext (q : Nat) (d : QDesc) (s : State) : (setQDesc q d s).wdNext = s.wdNext := rfl
@[simp] theorem setQDesc_wdAt (q : Nat) (d : QDesc) (s : State) : (setQDesc q d s).wdAt = s.wdAt := rfl
@[simp] theorem setQDesc_wdDisc (q : Nat) (d : QDesc) (s : State) : (setQDesc q d s).wdDisc = s.wdDisc := rfl
@[simp] theorem setQDesc_bgNext (q : Nat) (d : QDesc) (s : State) : (setQDesc q d s).bgNext = s.bgNext := rfl
@[simp] theorem setQDesc_bgAt (q : Nat) (d : QDesc) (s : State) : (setQDesc q d s).bgAt = s.bgAt := rfl
@[simp] theorem setQDesc_bgPass (q : Nat) (d : QDesc) (s : State) : (setQDesc q d s).bgPass = s.bgPass := rfl
@[simp] theorem setQDesc_pool (q : Nat) (d : QDesc) (s : State) : (setQDesc q d s).pool = s.pool := rfl
@[simp] theorem setQDesc_mbx (q : Nat) (d : QDesc) (s : State) : (setQDesc q d s).mbx = s.mbx := rfl
@[simp] theorem setQDesc_pg (q : Nat) (d : QDesc) (s : State) : (setQDesc q d s).pg = s.pg := rfl
@[simp] theorem setQDesc_ring (q : Nat) (d : QDesc) (s : State) : (setQDesc q d s).ring = s.ring := rfl
@[simp] theorem setQDesc_pcie (q : Nat) (d : QDesc) (s : State) : (setQDesc q d s).pcie = s.pcie := rfl
@[simp] theorem setQDesc_brx (q : Nat) (d : QDesc) (s : State) : (setQDesc q d s).brx = s.brx := rfl
@[simp] theorem setQDesc_fw (q : Nat) (d : QDesc) (s : State) : (setQDesc q d s).fw = s.fw := rfl
@[simp] theorem setQDesc_prot (q : Nat) (d : QDesc) (s : State) : (setQDesc q d s).prot = s.prot := rfl
@[simp] theorem setQDesc_saves (q : Nat) (d : QDesc) (s : State) : (setQDesc q d s).saves = s.saves := rfl
@[simp] theorem setQDesc_log (q : Nat) (d : QDesc) (s : State) : (setQDesc q d s).log = s.log := rfl
@[simp] theorem setQDesc_healQ (q : Nat) (d : QDesc) (s : State) : (setQDesc q d s).healQ = s.healQ := rfl
@[simp] theorem setQDesc_sramProof (q : Nat) (d : QDesc) (s : State) : (setQDesc q d s).sramProof = s.sramProof := rfl
@[simp] theorem setQDesc_remaps (q : Nat) (d : QDesc) (s : State) : (setQDesc q d s).remaps = s.remaps := rfl
@[simp] theorem setQDesc_remapRun (q : Nat) (d : QDesc) (s : State) : (setQDesc q d s).remapRun = s.remapRun := rfl
@[simp] theorem setQDesc_svc (q : Nat) (d : QDesc) (s : State) : (setQDesc q d s).svc = s.svc := rfl

/-! ### `replied` -/

@[simp] theorem replied_pending (op : Byte) (p : Pkt) (id : Nat) (st : Byte) (info : BitVec 24) (pay : List Word) (ready : Nat) (s : State) :
    (replied op p id st info pay ready s).pending = s.pending := rfl
@[simp] theorem replied_free (op : Byte) (p : Pkt) (id : Nat) (st : Byte) (info : BitVec 24) (pay : List Word) (ready : Nat) (s : State) :
    (replied op p id st info pay ready s).free = s.free := rfl
@[simp] theorem replied_part (op : Byte) (p : Pkt) (id : Nat) (st : Byte) (info : BitVec 24) (pay : List Word) (ready : Nat) (s : State) :
    (replied op p id st info pay ready s).part = s.part := rfl
@[simp] theorem replied_pins (op : Byte) (p : Pkt) (id : Nat) (st : Byte) (info : BitVec 24) (pay : List Word) (ready : Nat) (s : State) :
    (replied op p id st info pay ready s).pins = s.pins := rfl
@[simp] theorem replied_dev (op : Byte) (p : Pkt) (id : Nat) (st : Byte) (info : BitVec 24) (pay : List Word) (ready : Nat) (s : State) :
    (replied op p id st info pay ready s).dev = s.dev := rfl
@[simp] theorem replied_aon (op : Byte) (p : Pkt) (id : Nat) (st : Byte) (info : BitVec 24) (pay : List Word) (ready : Nat) (s : State) :
    (replied op p id st info pay ready s).aon = s.aon := rfl
@[simp] theorem replied_cclk (op : Byte) (p : Pkt) (id : Nat) (st : Byte) (info : BitVec 24) (pay : List Word) (ready : Nat) (s : State) :
    (replied op p id st info pay ready s).cclk = s.cclk := rfl
@[simp] theorem replied_nextId (op : Byte) (p : Pkt) (id : Nat) (st : Byte) (info : BitVec 24) (pay : List Word) (ready : Nat) (s : State) :
    (replied op p id st info pay ready s).nextId = s.nextId := rfl
@[simp] theorem replied_tb (op : Byte) (p : Pkt) (id : Nat) (st : Byte) (info : BitVec 24) (pay : List Word) (ready : Nat) (s : State) :
    (replied op p id st info pay ready s).tb = s.tb := rfl
@[simp] theorem replied_regs (op : Byte) (p : Pkt) (id : Nat) (st : Byte) (info : BitVec 24) (pay : List Word) (ready : Nat) (s : State) :
    (replied op p id st info pay ready s).regs = s.regs := rfl
@[simp] theorem replied_cnt (op : Byte) (p : Pkt) (id : Nat) (st : Byte) (info : BitVec 24) (pay : List Word) (ready : Nat) (s : State) :
    (replied op p id st info pay ready s).cnt = s.cnt := rfl
@[simp] theorem replied_stat (op : Byte) (p : Pkt) (id : Nat) (st : Byte) (info : BitVec 24) (pay : List Word) (ready : Nat) (s : State) :
    (replied op p id st info pay ready s).stat = s.stat := rfl
@[simp] theorem replied_shadow (op : Byte) (p : Pkt) (id : Nat) (st : Byte) (info : BitVec 24) (pay : List Word) (ready : Nat) (s : State) :
    (replied op p id st info pay ready s).shadow = s.shadow := rfl
@[simp] theorem replied_cfgBad (op : Byte) (p : Pkt) (id : Nat) (st : Byte) (info : BitVec 24) (pay : List Word) (ready : Nat) (s : State) :
    (replied op p id st info pay ready s).cfgBad = s.cfgBad := rfl
@[simp] theorem replied_pclsWas (op : Byte) (p : Pkt) (id : Nat) (st : Byte) (info : BitVec 24) (pay : List Word) (ready : Nat) (s : State) :
    (replied op p id st info pay ready s).pclsWas = s.pclsWas := rfl
@[simp] theorem replied_tplWas (op : Byte) (p : Pkt) (id : Nat) (st : Byte) (info : BitVec 24) (pay : List Word) (ready : Nat) (s : State) :
    (replied op p id st info pay ready s).tplWas = s.tplWas := rfl
@[simp] theorem replied_ch (op : Byte) (p : Pkt) (id : Nat) (st : Byte) (info : BitVec 24) (pay : List Word) (ready : Nat) (s : State) :
    (replied op p id st info pay ready s).ch = s.ch := rfl
@[simp] theorem replied_searches (op : Byte) (p : Pkt) (id : Nat) (st : Byte) (info : BitVec 24) (pay : List Word) (ready : Nat) (s : State) :
    (replied op p id st info pay ready s).searches = s.searches := rfl
@[simp] theorem replied_sram (op : Byte) (p : Pkt) (id : Nat) (st : Byte) (info : BitVec 24) (pay : List Word) (ready : Nat) (s : State) :
    (replied op p id st info pay ready s).sram = s.sram := rfl
@[simp] theorem replied_vbad (op : Byte) (p : Pkt) (id : Nat) (st : Byte) (info : BitVec 24) (pay : List Word) (ready : Nat) (s : State) :
    (replied op p id st info pay ready s).vbad = s.vbad := rfl
@[simp] theorem replied_poisonSeen (op : Byte) (p : Pkt) (id : Nat) (st : Byte) (info : BitVec 24) (pay : List Word) (ready : Nat) (s : State) :
    (replied op p id st info pay ready s).poisonSeen = s.poisonSeen := rfl
@[simp] theorem replied_lentWait (op : Byte) (p : Pkt) (id : Nat) (st : Byte) (info : BitVec 24) (pay : List Word) (ready : Nat) (s : State) :
    (replied op p id st info pay ready s).lentWait = s.lentWait := rfl
@[simp] theorem replied_bgCur (op : Byte) (p : Pkt) (id : Nat) (st : Byte) (info : BitVec 24) (pay : List Word) (ready : Nat) (s : State) :
    (replied op p id st info pay ready s).bgCur = s.bgCur := rfl
@[simp] theorem replied_bgWait (op : Byte) (p : Pkt) (id : Nat) (st : Byte) (info : BitVec 24) (pay : List Word) (ready : Nat) (s : State) :
    (replied op p id st info pay ready s).bgWait = s.bgWait := rfl
@[simp] theorem replied_qm (op : Byte) (p : Pkt) (id : Nat) (st : Byte) (info : BitVec 24) (pay : List Word) (ready : Nat) (s : State) :
    (replied op p id st info pay ready s).qm = s.qm := rfl
@[simp] theorem replied_xpo (op : Byte) (p : Pkt) (id : Nat) (st : Byte) (info : BitVec 24) (pay : List Word) (ready : Nat) (s : State) :
    (replied op p id st info pay ready s).xpo = s.xpo := rfl
@[simp] theorem replied_se (op : Byte) (p : Pkt) (id : Nat) (st : Byte) (info : BitVec 24) (pay : List Word) (ready : Nat) (s : State) :
    (replied op p id st info pay ready s).se = s.se := rfl
@[simp] theorem replied_wdNext (op : Byte) (p : Pkt) (id : Nat) (st : Byte) (info : BitVec 24) (pay : List Word) (ready : Nat) (s : State) :
    (replied op p id st info pay ready s).wdNext = s.wdNext := rfl
@[simp] theorem replied_wdAt (op : Byte) (p : Pkt) (id : Nat) (st : Byte) (info : BitVec 24) (pay : List Word) (ready : Nat) (s : State) :
    (replied op p id st info pay ready s).wdAt = s.wdAt := rfl
@[simp] theorem replied_wdDisc (op : Byte) (p : Pkt) (id : Nat) (st : Byte) (info : BitVec 24) (pay : List Word) (ready : Nat) (s : State) :
    (replied op p id st info pay ready s).wdDisc = s.wdDisc := rfl
@[simp] theorem replied_bgNext (op : Byte) (p : Pkt) (id : Nat) (st : Byte) (info : BitVec 24) (pay : List Word) (ready : Nat) (s : State) :
    (replied op p id st info pay ready s).bgNext = s.bgNext := rfl
@[simp] theorem replied_bgAt (op : Byte) (p : Pkt) (id : Nat) (st : Byte) (info : BitVec 24) (pay : List Word) (ready : Nat) (s : State) :
    (replied op p id st info pay ready s).bgAt = s.bgAt := rfl
@[simp] theorem replied_bgPass (op : Byte) (p : Pkt) (id : Nat) (st : Byte) (info : BitVec 24) (pay : List Word) (ready : Nat) (s : State) :
    (replied op p id st info pay ready s).bgPass = s.bgPass := rfl
@[simp] theorem replied_pool (op : Byte) (p : Pkt) (id : Nat) (st : Byte) (info : BitVec 24) (pay : List Word) (ready : Nat) (s : State) :
    (replied op p id st info pay ready s).pool = s.pool := rfl
@[simp] theorem replied_mbx (op : Byte) (p : Pkt) (id : Nat) (st : Byte) (info : BitVec 24) (pay : List Word) (ready : Nat) (s : State) :
    (replied op p id st info pay ready s).mbx = s.mbx := rfl
@[simp] theorem replied_pg (op : Byte) (p : Pkt) (id : Nat) (st : Byte) (info : BitVec 24) (pay : List Word) (ready : Nat) (s : State) :
    (replied op p id st info pay ready s).pg = s.pg := rfl
@[simp] theorem replied_ring (op : Byte) (p : Pkt) (id : Nat) (st : Byte) (info : BitVec 24) (pay : List Word) (ready : Nat) (s : State) :
    (replied op p id st info pay ready s).ring = s.ring := rfl
@[simp] theorem replied_pcie (op : Byte) (p : Pkt) (id : Nat) (st : Byte) (info : BitVec 24) (pay : List Word) (ready : Nat) (s : State) :
    (replied op p id st info pay ready s).pcie = s.pcie := rfl
@[simp] theorem replied_brx (op : Byte) (p : Pkt) (id : Nat) (st : Byte) (info : BitVec 24) (pay : List Word) (ready : Nat) (s : State) :
    (replied op p id st info pay ready s).brx = s.brx := rfl
@[simp] theorem replied_fw (op : Byte) (p : Pkt) (id : Nat) (st : Byte) (info : BitVec 24) (pay : List Word) (ready : Nat) (s : State) :
    (replied op p id st info pay ready s).fw = s.fw := rfl
@[simp] theorem replied_prot (op : Byte) (p : Pkt) (id : Nat) (st : Byte) (info : BitVec 24) (pay : List Word) (ready : Nat) (s : State) :
    (replied op p id st info pay ready s).prot = s.prot := rfl
@[simp] theorem replied_saves (op : Byte) (p : Pkt) (id : Nat) (st : Byte) (info : BitVec 24) (pay : List Word) (ready : Nat) (s : State) :
    (replied op p id st info pay ready s).saves = s.saves := rfl
@[simp] theorem replied_log (op : Byte) (p : Pkt) (id : Nat) (st : Byte) (info : BitVec 24) (pay : List Word) (ready : Nat) (s : State) :
    (replied op p id st info pay ready s).log = s.log := rfl
@[simp] theorem replied_healQ (op : Byte) (p : Pkt) (id : Nat) (st : Byte) (info : BitVec 24) (pay : List Word) (ready : Nat) (s : State) :
    (replied op p id st info pay ready s).healQ = s.healQ := rfl
@[simp] theorem replied_sramProof (op : Byte) (p : Pkt) (id : Nat) (st : Byte) (info : BitVec 24) (pay : List Word) (ready : Nat) (s : State) :
    (replied op p id st info pay ready s).sramProof = s.sramProof := rfl
@[simp] theorem replied_remaps (op : Byte) (p : Pkt) (id : Nat) (st : Byte) (info : BitVec 24) (pay : List Word) (ready : Nat) (s : State) :
    (replied op p id st info pay ready s).remaps = s.remaps := rfl
@[simp] theorem replied_remapRun (op : Byte) (p : Pkt) (id : Nat) (st : Byte) (info : BitVec 24) (pay : List Word) (ready : Nat) (s : State) :
    (replied op p id st info pay ready s).remapRun = s.remapRun := rfl
@[simp] theorem replied_svc (op : Byte) (p : Pkt) (id : Nat) (st : Byte) (info : BitVec 24) (pay : List Word) (ready : Nat) (s : State) :
    (replied op p id st info pay ready s).svc = s.svc := rfl

/-! ### `checkedIn` -/

@[simp] theorem checkedIn_pending (p : Pkt) (s : State) : (checkedIn p s).pending = s.pending := rfl
@[simp] theorem checkedIn_free (p : Pkt) (s : State) : (checkedIn p s).free = s.free := rfl
@[simp] theorem checkedIn_part (p : Pkt) (s : State) : (checkedIn p s).part = s.part := rfl
@[simp] theorem checkedIn_pins (p : Pkt) (s : State) : (checkedIn p s).pins = s.pins := rfl
@[simp] theorem checkedIn_dev (p : Pkt) (s : State) : (checkedIn p s).dev = s.dev := rfl
@[simp] theorem checkedIn_aon (p : Pkt) (s : State) : (checkedIn p s).aon = s.aon := rfl
@[simp] theorem checkedIn_cclk (p : Pkt) (s : State) : (checkedIn p s).cclk = s.cclk := rfl
@[simp] theorem checkedIn_tb (p : Pkt) (s : State) : (checkedIn p s).tb = s.tb := rfl
@[simp] theorem checkedIn_regs (p : Pkt) (s : State) : (checkedIn p s).regs = s.regs := rfl
@[simp] theorem checkedIn_cnt (p : Pkt) (s : State) : (checkedIn p s).cnt = s.cnt := rfl
@[simp] theorem checkedIn_stat (p : Pkt) (s : State) : (checkedIn p s).stat = s.stat := rfl
@[simp] theorem checkedIn_shadow (p : Pkt) (s : State) : (checkedIn p s).shadow = s.shadow := rfl
@[simp] theorem checkedIn_cfgBad (p : Pkt) (s : State) : (checkedIn p s).cfgBad = s.cfgBad := rfl
@[simp] theorem checkedIn_pclsWas (p : Pkt) (s : State) : (checkedIn p s).pclsWas = s.pclsWas := rfl
@[simp] theorem checkedIn_tplWas (p : Pkt) (s : State) : (checkedIn p s).tplWas = s.tplWas := rfl
@[simp] theorem checkedIn_ch (p : Pkt) (s : State) : (checkedIn p s).ch = s.ch := rfl
@[simp] theorem checkedIn_searches (p : Pkt) (s : State) : (checkedIn p s).searches = s.searches := rfl
@[simp] theorem checkedIn_replies (p : Pkt) (s : State) : (checkedIn p s).replies = s.replies := rfl
@[simp] theorem checkedIn_sram (p : Pkt) (s : State) : (checkedIn p s).sram = s.sram := rfl
@[simp] theorem checkedIn_vbad (p : Pkt) (s : State) : (checkedIn p s).vbad = s.vbad := rfl
@[simp] theorem checkedIn_poisonSeen (p : Pkt) (s : State) : (checkedIn p s).poisonSeen = s.poisonSeen := rfl
@[simp] theorem checkedIn_lentWait (p : Pkt) (s : State) : (checkedIn p s).lentWait = s.lentWait := rfl
@[simp] theorem checkedIn_bgCur (p : Pkt) (s : State) : (checkedIn p s).bgCur = s.bgCur := rfl
@[simp] theorem checkedIn_bgWait (p : Pkt) (s : State) : (checkedIn p s).bgWait = s.bgWait := rfl
@[simp] theorem checkedIn_qm (p : Pkt) (s : State) : (checkedIn p s).qm = s.qm := rfl
@[simp] theorem checkedIn_xpo (p : Pkt) (s : State) : (checkedIn p s).xpo = s.xpo := rfl
@[simp] theorem checkedIn_se (p : Pkt) (s : State) : (checkedIn p s).se = s.se := rfl
@[simp] theorem checkedIn_wdNext (p : Pkt) (s : State) : (checkedIn p s).wdNext = s.wdNext := rfl
@[simp] theorem checkedIn_wdAt (p : Pkt) (s : State) : (checkedIn p s).wdAt = s.wdAt := rfl
@[simp] theorem checkedIn_wdDisc (p : Pkt) (s : State) : (checkedIn p s).wdDisc = s.wdDisc := rfl
@[simp] theorem checkedIn_bgNext (p : Pkt) (s : State) : (checkedIn p s).bgNext = s.bgNext := rfl
@[simp] theorem checkedIn_bgAt (p : Pkt) (s : State) : (checkedIn p s).bgAt = s.bgAt := rfl
@[simp] theorem checkedIn_bgPass (p : Pkt) (s : State) : (checkedIn p s).bgPass = s.bgPass := rfl
@[simp] theorem checkedIn_pool (p : Pkt) (s : State) : (checkedIn p s).pool = s.pool := rfl
@[simp] theorem checkedIn_mbx (p : Pkt) (s : State) : (checkedIn p s).mbx = s.mbx := rfl
@[simp] theorem checkedIn_pg (p : Pkt) (s : State) : (checkedIn p s).pg = s.pg := rfl
@[simp] theorem checkedIn_ring (p : Pkt) (s : State) : (checkedIn p s).ring = s.ring := rfl
@[simp] theorem checkedIn_brx (p : Pkt) (s : State) : (checkedIn p s).brx = s.brx := rfl
@[simp] theorem checkedIn_fw (p : Pkt) (s : State) : (checkedIn p s).fw = s.fw := rfl
@[simp] theorem checkedIn_prot (p : Pkt) (s : State) : (checkedIn p s).prot = s.prot := rfl
@[simp] theorem checkedIn_saves (p : Pkt) (s : State) : (checkedIn p s).saves = s.saves := rfl
@[simp] theorem checkedIn_log (p : Pkt) (s : State) : (checkedIn p s).log = s.log := rfl
@[simp] theorem checkedIn_healQ (p : Pkt) (s : State) : (checkedIn p s).healQ = s.healQ := rfl
@[simp] theorem checkedIn_sramProof (p : Pkt) (s : State) : (checkedIn p s).sramProof = s.sramProof := rfl
@[simp] theorem checkedIn_remaps (p : Pkt) (s : State) : (checkedIn p s).remaps = s.remaps := rfl
@[simp] theorem checkedIn_remapRun (p : Pkt) (s : State) : (checkedIn p s).remapRun = s.remapRun := rfl
@[simp] theorem checkedIn_svc (p : Pkt) (s : State) : (checkedIn p s).svc = s.svc := rfl

/-! ### `takenIn` -/

@[simp] theorem takenIn_pending (p : Pkt) (s : State) : (takenIn p s).pending = s.pending := rfl
@[simp] theorem takenIn_free (p : Pkt) (s : State) : (takenIn p s).free = s.free := rfl
@[simp] theorem takenIn_part (p : Pkt) (s : State) : (takenIn p s).part = s.part := rfl
@[simp] theorem takenIn_pins (p : Pkt) (s : State) : (takenIn p s).pins = s.pins := rfl
@[simp] theorem takenIn_dev (p : Pkt) (s : State) : (takenIn p s).dev = s.dev := rfl
@[simp] theorem takenIn_aon (p : Pkt) (s : State) : (takenIn p s).aon = s.aon := rfl
@[simp] theorem takenIn_cclk (p : Pkt) (s : State) : (takenIn p s).cclk = s.cclk := rfl
@[simp] theorem takenIn_tb (p : Pkt) (s : State) : (takenIn p s).tb = s.tb := rfl
@[simp] theorem takenIn_regs (p : Pkt) (s : State) : (takenIn p s).regs = s.regs := rfl
@[simp] theorem takenIn_cnt (p : Pkt) (s : State) : (takenIn p s).cnt = s.cnt := rfl
@[simp] theorem takenIn_stat (p : Pkt) (s : State) : (takenIn p s).stat = s.stat := rfl
@[simp] theorem takenIn_shadow (p : Pkt) (s : State) : (takenIn p s).shadow = s.shadow := rfl
@[simp] theorem takenIn_cfgBad (p : Pkt) (s : State) : (takenIn p s).cfgBad = s.cfgBad := rfl
@[simp] theorem takenIn_pclsWas (p : Pkt) (s : State) : (takenIn p s).pclsWas = s.pclsWas := rfl
@[simp] theorem takenIn_tplWas (p : Pkt) (s : State) : (takenIn p s).tplWas = s.tplWas := rfl
@[simp] theorem takenIn_ch (p : Pkt) (s : State) : (takenIn p s).ch = s.ch := rfl
@[simp] theorem takenIn_searches (p : Pkt) (s : State) : (takenIn p s).searches = s.searches := rfl
@[simp] theorem takenIn_replies (p : Pkt) (s : State) : (takenIn p s).replies = s.replies := rfl
@[simp] theorem takenIn_sram (p : Pkt) (s : State) : (takenIn p s).sram = s.sram := rfl
@[simp] theorem takenIn_vbad (p : Pkt) (s : State) : (takenIn p s).vbad = s.vbad := rfl
@[simp] theorem takenIn_poisonSeen (p : Pkt) (s : State) : (takenIn p s).poisonSeen = s.poisonSeen := rfl
@[simp] theorem takenIn_lentWait (p : Pkt) (s : State) : (takenIn p s).lentWait = s.lentWait := rfl
@[simp] theorem takenIn_bgCur (p : Pkt) (s : State) : (takenIn p s).bgCur = s.bgCur := rfl
@[simp] theorem takenIn_bgWait (p : Pkt) (s : State) : (takenIn p s).bgWait = s.bgWait := rfl
@[simp] theorem takenIn_qm (p : Pkt) (s : State) : (takenIn p s).qm = s.qm := rfl
@[simp] theorem takenIn_xpo (p : Pkt) (s : State) : (takenIn p s).xpo = s.xpo := rfl
@[simp] theorem takenIn_se (p : Pkt) (s : State) : (takenIn p s).se = s.se := rfl
@[simp] theorem takenIn_wdNext (p : Pkt) (s : State) : (takenIn p s).wdNext = s.wdNext := rfl
@[simp] theorem takenIn_wdAt (p : Pkt) (s : State) : (takenIn p s).wdAt = s.wdAt := rfl
@[simp] theorem takenIn_wdDisc (p : Pkt) (s : State) : (takenIn p s).wdDisc = s.wdDisc := rfl
@[simp] theorem takenIn_bgNext (p : Pkt) (s : State) : (takenIn p s).bgNext = s.bgNext := rfl
@[simp] theorem takenIn_bgAt (p : Pkt) (s : State) : (takenIn p s).bgAt = s.bgAt := rfl
@[simp] theorem takenIn_bgPass (p : Pkt) (s : State) : (takenIn p s).bgPass = s.bgPass := rfl
@[simp] theorem takenIn_pool (p : Pkt) (s : State) : (takenIn p s).pool = s.pool := rfl
@[simp] theorem takenIn_mbx (p : Pkt) (s : State) : (takenIn p s).mbx = s.mbx := rfl
@[simp] theorem takenIn_pg (p : Pkt) (s : State) : (takenIn p s).pg = s.pg := rfl
@[simp] theorem takenIn_ring (p : Pkt) (s : State) : (takenIn p s).ring = s.ring := rfl
@[simp] theorem takenIn_brx (p : Pkt) (s : State) : (takenIn p s).brx = s.brx := rfl
@[simp] theorem takenIn_prot (p : Pkt) (s : State) : (takenIn p s).prot = s.prot := rfl
@[simp] theorem takenIn_saves (p : Pkt) (s : State) : (takenIn p s).saves = s.saves := rfl
@[simp] theorem takenIn_log (p : Pkt) (s : State) : (takenIn p s).log = s.log := rfl
@[simp] theorem takenIn_healQ (p : Pkt) (s : State) : (takenIn p s).healQ = s.healQ := rfl
@[simp] theorem takenIn_sramProof (p : Pkt) (s : State) : (takenIn p s).sramProof = s.sramProof := rfl
@[simp] theorem takenIn_remaps (p : Pkt) (s : State) : (takenIn p s).remaps = s.remaps := rfl
@[simp] theorem takenIn_remapRun (p : Pkt) (s : State) : (takenIn p s).remapRun = s.remapRun := rfl
@[simp] theorem takenIn_svc (p : Pkt) (s : State) : (takenIn p s).svc = s.svc := rfl
@[simp] theorem takenIn_nextId (p : Pkt) (s : State) : (takenIn p s).nextId = s.nextId + 1 := rfl

/-! ### `slotIn` -/

@[simp] theorem slotIn_pending (p : Pkt) (s : State) : (slotIn p s).pending = s.pending := rfl
@[simp] theorem slotIn_free (p : Pkt) (s : State) : (slotIn p s).free = s.free := rfl
@[simp] theorem slotIn_part (p : Pkt) (s : State) : (slotIn p s).part = s.part := rfl
@[simp] theorem slotIn_pins (p : Pkt) (s : State) : (slotIn p s).pins = s.pins := rfl
@[simp] theorem slotIn_dev (p : Pkt) (s : State) : (slotIn p s).dev = s.dev := rfl
@[simp] theorem slotIn_aon (p : Pkt) (s : State) : (slotIn p s).aon = s.aon := rfl
@[simp] theorem slotIn_cclk (p : Pkt) (s : State) : (slotIn p s).cclk = s.cclk := rfl
@[simp] theorem slotIn_tb (p : Pkt) (s : State) : (slotIn p s).tb = s.tb := rfl
@[simp] theorem slotIn_regs (p : Pkt) (s : State) : (slotIn p s).regs = s.regs := rfl
@[simp] theorem slotIn_cnt (p : Pkt) (s : State) : (slotIn p s).cnt = s.cnt := rfl
@[simp] theorem slotIn_stat (p : Pkt) (s : State) : (slotIn p s).stat = s.stat := rfl
@[simp] theorem slotIn_shadow (p : Pkt) (s : State) : (slotIn p s).shadow = s.shadow := rfl
@[simp] theorem slotIn_cfgBad (p : Pkt) (s : State) : (slotIn p s).cfgBad = s.cfgBad := rfl
@[simp] theorem slotIn_pclsWas (p : Pkt) (s : State) : (slotIn p s).pclsWas = s.pclsWas := rfl
@[simp] theorem slotIn_tplWas (p : Pkt) (s : State) : (slotIn p s).tplWas = s.tplWas := rfl
@[simp] theorem slotIn_ch (p : Pkt) (s : State) : (slotIn p s).ch = s.ch := rfl
@[simp] theorem slotIn_searches (p : Pkt) (s : State) : (slotIn p s).searches = s.searches := rfl
@[simp] theorem slotIn_replies (p : Pkt) (s : State) : (slotIn p s).replies = s.replies := rfl
@[simp] theorem slotIn_sram (p : Pkt) (s : State) : (slotIn p s).sram = s.sram := rfl
@[simp] theorem slotIn_vbad (p : Pkt) (s : State) : (slotIn p s).vbad = s.vbad := rfl
@[simp] theorem slotIn_poisonSeen (p : Pkt) (s : State) : (slotIn p s).poisonSeen = s.poisonSeen := rfl
@[simp] theorem slotIn_lentWait (p : Pkt) (s : State) : (slotIn p s).lentWait = s.lentWait := rfl
@[simp] theorem slotIn_bgCur (p : Pkt) (s : State) : (slotIn p s).bgCur = s.bgCur := rfl
@[simp] theorem slotIn_bgWait (p : Pkt) (s : State) : (slotIn p s).bgWait = s.bgWait := rfl
@[simp] theorem slotIn_qm (p : Pkt) (s : State) : (slotIn p s).qm = s.qm := rfl
@[simp] theorem slotIn_xpo (p : Pkt) (s : State) : (slotIn p s).xpo = s.xpo := rfl
@[simp] theorem slotIn_wdNext (p : Pkt) (s : State) : (slotIn p s).wdNext = s.wdNext := rfl
@[simp] theorem slotIn_wdAt (p : Pkt) (s : State) : (slotIn p s).wdAt = s.wdAt := rfl
@[simp] theorem slotIn_wdDisc (p : Pkt) (s : State) : (slotIn p s).wdDisc = s.wdDisc := rfl
@[simp] theorem slotIn_bgNext (p : Pkt) (s : State) : (slotIn p s).bgNext = s.bgNext := rfl
@[simp] theorem slotIn_bgAt (p : Pkt) (s : State) : (slotIn p s).bgAt = s.bgAt := rfl
@[simp] theorem slotIn_bgPass (p : Pkt) (s : State) : (slotIn p s).bgPass = s.bgPass := rfl
@[simp] theorem slotIn_pool (p : Pkt) (s : State) : (slotIn p s).pool = s.pool := rfl
@[simp] theorem slotIn_mbx (p : Pkt) (s : State) : (slotIn p s).mbx = s.mbx := rfl
@[simp] theorem slotIn_pg (p : Pkt) (s : State) : (slotIn p s).pg = s.pg := rfl
@[simp] theorem slotIn_ring (p : Pkt) (s : State) : (slotIn p s).ring = s.ring := rfl
@[simp] theorem slotIn_brx (p : Pkt) (s : State) : (slotIn p s).brx = s.brx := rfl
@[simp] theorem slotIn_fw (p : Pkt) (s : State) : (slotIn p s).fw = s.fw := rfl
@[simp] theorem slotIn_prot (p : Pkt) (s : State) : (slotIn p s).prot = s.prot := rfl
@[simp] theorem slotIn_saves (p : Pkt) (s : State) : (slotIn p s).saves = s.saves := rfl
@[simp] theorem slotIn_log (p : Pkt) (s : State) : (slotIn p s).log = s.log := rfl
@[simp] theorem slotIn_healQ (p : Pkt) (s : State) : (slotIn p s).healQ = s.healQ := rfl
@[simp] theorem slotIn_sramProof (p : Pkt) (s : State) : (slotIn p s).sramProof = s.sramProof := rfl
@[simp] theorem slotIn_remaps (p : Pkt) (s : State) : (slotIn p s).remaps = s.remaps := rfl
@[simp] theorem slotIn_remapRun (p : Pkt) (s : State) : (slotIn p s).remapRun = s.remapRun := rfl
@[simp] theorem slotIn_svc (p : Pkt) (s : State) : (slotIn p s).svc = s.svc := rfl
@[simp] theorem slotIn_nextId (p : Pkt) (s : State) : (slotIn p s).nextId = s.nextId + 1 := rfl

/-! ### `queueIn` -/

@[simp] theorem queueIn_pending (p : Pkt) (s : State) : (queueIn p s).pending = s.pending := rfl
@[simp] theorem queueIn_free (p : Pkt) (s : State) : (queueIn p s).free = s.free := rfl
@[simp] theorem queueIn_part (p : Pkt) (s : State) : (queueIn p s).part = s.part := rfl
@[simp] theorem queueIn_pins (p : Pkt) (s : State) : (queueIn p s).pins = s.pins := rfl
@[simp] theorem queueIn_dev (p : Pkt) (s : State) : (queueIn p s).dev = s.dev := rfl
@[simp] theorem queueIn_aon (p : Pkt) (s : State) : (queueIn p s).aon = s.aon := rfl
@[simp] theorem queueIn_cclk (p : Pkt) (s : State) : (queueIn p s).cclk = s.cclk := rfl
@[simp] theorem queueIn_tb (p : Pkt) (s : State) : (queueIn p s).tb = s.tb := rfl
@[simp] theorem queueIn_regs (p : Pkt) (s : State) : (queueIn p s).regs = s.regs := rfl
@[simp] theorem queueIn_cnt (p : Pkt) (s : State) : (queueIn p s).cnt = s.cnt := rfl
@[simp] theorem queueIn_stat (p : Pkt) (s : State) : (queueIn p s).stat = s.stat := rfl
@[simp] theorem queueIn_shadow (p : Pkt) (s : State) : (queueIn p s).shadow = s.shadow := rfl
@[simp] theorem queueIn_cfgBad (p : Pkt) (s : State) : (queueIn p s).cfgBad = s.cfgBad := rfl
@[simp] theorem queueIn_pclsWas (p : Pkt) (s : State) : (queueIn p s).pclsWas = s.pclsWas := rfl
@[simp] theorem queueIn_tplWas (p : Pkt) (s : State) : (queueIn p s).tplWas = s.tplWas := rfl
@[simp] theorem queueIn_ch (p : Pkt) (s : State) : (queueIn p s).ch = s.ch := rfl
@[simp] theorem queueIn_searches (p : Pkt) (s : State) : (queueIn p s).searches = s.searches := rfl
@[simp] theorem queueIn_replies (p : Pkt) (s : State) : (queueIn p s).replies = s.replies := rfl
@[simp] theorem queueIn_sram (p : Pkt) (s : State) : (queueIn p s).sram = s.sram := rfl
@[simp] theorem queueIn_vbad (p : Pkt) (s : State) : (queueIn p s).vbad = s.vbad := rfl
@[simp] theorem queueIn_poisonSeen (p : Pkt) (s : State) : (queueIn p s).poisonSeen = s.poisonSeen := rfl
@[simp] theorem queueIn_lentWait (p : Pkt) (s : State) : (queueIn p s).lentWait = s.lentWait := rfl
@[simp] theorem queueIn_bgCur (p : Pkt) (s : State) : (queueIn p s).bgCur = s.bgCur := rfl
@[simp] theorem queueIn_bgWait (p : Pkt) (s : State) : (queueIn p s).bgWait = s.bgWait := rfl
@[simp] theorem queueIn_xpo (p : Pkt) (s : State) : (queueIn p s).xpo = s.xpo := rfl
@[simp] theorem queueIn_se (p : Pkt) (s : State) : (queueIn p s).se = s.se := rfl
@[simp] theorem queueIn_wdNext (p : Pkt) (s : State) : (queueIn p s).wdNext = s.wdNext := rfl
@[simp] theorem queueIn_wdAt (p : Pkt) (s : State) : (queueIn p s).wdAt = s.wdAt := rfl
@[simp] theorem queueIn_wdDisc (p : Pkt) (s : State) : (queueIn p s).wdDisc = s.wdDisc := rfl
@[simp] theorem queueIn_bgNext (p : Pkt) (s : State) : (queueIn p s).bgNext = s.bgNext := rfl
@[simp] theorem queueIn_bgAt (p : Pkt) (s : State) : (queueIn p s).bgAt = s.bgAt := rfl
@[simp] theorem queueIn_bgPass (p : Pkt) (s : State) : (queueIn p s).bgPass = s.bgPass := rfl
@[simp] theorem queueIn_pool (p : Pkt) (s : State) : (queueIn p s).pool = s.pool := rfl
@[simp] theorem queueIn_mbx (p : Pkt) (s : State) : (queueIn p s).mbx = s.mbx := rfl
@[simp] theorem queueIn_pg (p : Pkt) (s : State) : (queueIn p s).pg = s.pg := rfl
@[simp] theorem queueIn_ring (p : Pkt) (s : State) : (queueIn p s).ring = s.ring := rfl
@[simp] theorem queueIn_brx (p : Pkt) (s : State) : (queueIn p s).brx = s.brx := rfl
@[simp] theorem queueIn_fw (p : Pkt) (s : State) : (queueIn p s).fw = s.fw := rfl
@[simp] theorem queueIn_prot (p : Pkt) (s : State) : (queueIn p s).prot = s.prot := rfl
@[simp] theorem queueIn_saves (p : Pkt) (s : State) : (queueIn p s).saves = s.saves := rfl
@[simp] theorem queueIn_log (p : Pkt) (s : State) : (queueIn p s).log = s.log := rfl
@[simp] theorem queueIn_healQ (p : Pkt) (s : State) : (queueIn p s).healQ = s.healQ := rfl
@[simp] theorem queueIn_sramProof (p : Pkt) (s : State) : (queueIn p s).sramProof = s.sramProof := rfl
@[simp] theorem queueIn_remaps (p : Pkt) (s : State) : (queueIn p s).remaps = s.remaps := rfl
@[simp] theorem queueIn_remapRun (p : Pkt) (s : State) : (queueIn p s).remapRun = s.remapRun := rfl
@[simp] theorem queueIn_svc (p : Pkt) (s : State) : (queueIn p s).svc = s.svc := rfl
@[simp] theorem queueIn_nextId (p : Pkt) (s : State) : (queueIn p s).nextId = s.nextId + 1 := rfl

/-! ### `poolIn` -/

@[simp] theorem poolIn_pending (p : Pkt) (s : State) : (poolIn p s).pending = s.pending := rfl
@[simp] theorem poolIn_free (p : Pkt) (s : State) : (poolIn p s).free = s.free := rfl
@[simp] theorem poolIn_part (p : Pkt) (s : State) : (poolIn p s).part = s.part := rfl
@[simp] theorem poolIn_pins (p : Pkt) (s : State) : (poolIn p s).pins = s.pins := rfl
@[simp] theorem poolIn_dev (p : Pkt) (s : State) : (poolIn p s).dev = s.dev := rfl
@[simp] theorem poolIn_aon (p : Pkt) (s : State) : (poolIn p s).aon = s.aon := rfl
@[simp] theorem poolIn_cclk (p : Pkt) (s : State) : (poolIn p s).cclk = s.cclk := rfl
@[simp] theorem poolIn_tb (p : Pkt) (s : State) : (poolIn p s).tb = s.tb := rfl
@[simp] theorem poolIn_regs (p : Pkt) (s : State) : (poolIn p s).regs = s.regs := rfl
@[simp] theorem poolIn_cnt (p : Pkt) (s : State) : (poolIn p s).cnt = s.cnt := rfl
@[simp] theorem poolIn_stat (p : Pkt) (s : State) : (poolIn p s).stat = s.stat := rfl
@[simp] theorem poolIn_shadow (p : Pkt) (s : State) : (poolIn p s).shadow = s.shadow := rfl
@[simp] theorem poolIn_cfgBad (p : Pkt) (s : State) : (poolIn p s).cfgBad = s.cfgBad := rfl
@[simp] theorem poolIn_pclsWas (p : Pkt) (s : State) : (poolIn p s).pclsWas = s.pclsWas := rfl
@[simp] theorem poolIn_tplWas (p : Pkt) (s : State) : (poolIn p s).tplWas = s.tplWas := rfl
@[simp] theorem poolIn_ch (p : Pkt) (s : State) : (poolIn p s).ch = s.ch := rfl
@[simp] theorem poolIn_searches (p : Pkt) (s : State) : (poolIn p s).searches = s.searches := rfl
@[simp] theorem poolIn_replies (p : Pkt) (s : State) : (poolIn p s).replies = s.replies := rfl
@[simp] theorem poolIn_sram (p : Pkt) (s : State) : (poolIn p s).sram = s.sram := rfl
@[simp] theorem poolIn_vbad (p : Pkt) (s : State) : (poolIn p s).vbad = s.vbad := rfl
@[simp] theorem poolIn_poisonSeen (p : Pkt) (s : State) : (poolIn p s).poisonSeen = s.poisonSeen := rfl
@[simp] theorem poolIn_lentWait (p : Pkt) (s : State) : (poolIn p s).lentWait = s.lentWait := rfl
@[simp] theorem poolIn_bgCur (p : Pkt) (s : State) : (poolIn p s).bgCur = s.bgCur := rfl
@[simp] theorem poolIn_bgWait (p : Pkt) (s : State) : (poolIn p s).bgWait = s.bgWait := rfl
@[simp] theorem poolIn_qm (p : Pkt) (s : State) : (poolIn p s).qm = s.qm := rfl
@[simp] theorem poolIn_xpo (p : Pkt) (s : State) : (poolIn p s).xpo = s.xpo := rfl
@[simp] theorem poolIn_se (p : Pkt) (s : State) : (poolIn p s).se = s.se := rfl
@[simp] theorem poolIn_wdNext (p : Pkt) (s : State) : (poolIn p s).wdNext = s.wdNext := rfl
@[simp] theorem poolIn_wdAt (p : Pkt) (s : State) : (poolIn p s).wdAt = s.wdAt := rfl
@[simp] theorem poolIn_wdDisc (p : Pkt) (s : State) : (poolIn p s).wdDisc = s.wdDisc := rfl
@[simp] theorem poolIn_bgNext (p : Pkt) (s : State) : (poolIn p s).bgNext = s.bgNext := rfl
@[simp] theorem poolIn_bgAt (p : Pkt) (s : State) : (poolIn p s).bgAt = s.bgAt := rfl
@[simp] theorem poolIn_bgPass (p : Pkt) (s : State) : (poolIn p s).bgPass = s.bgPass := rfl
@[simp] theorem poolIn_mbx (p : Pkt) (s : State) : (poolIn p s).mbx = s.mbx := rfl
@[simp] theorem poolIn_pg (p : Pkt) (s : State) : (poolIn p s).pg = s.pg := rfl
@[simp] theorem poolIn_ring (p : Pkt) (s : State) : (poolIn p s).ring = s.ring := rfl
@[simp] theorem poolIn_brx (p : Pkt) (s : State) : (poolIn p s).brx = s.brx := rfl
@[simp] theorem poolIn_fw (p : Pkt) (s : State) : (poolIn p s).fw = s.fw := rfl
@[simp] theorem poolIn_prot (p : Pkt) (s : State) : (poolIn p s).prot = s.prot := rfl
@[simp] theorem poolIn_saves (p : Pkt) (s : State) : (poolIn p s).saves = s.saves := rfl
@[simp] theorem poolIn_log (p : Pkt) (s : State) : (poolIn p s).log = s.log := rfl
@[simp] theorem poolIn_healQ (p : Pkt) (s : State) : (poolIn p s).healQ = s.healQ := rfl
@[simp] theorem poolIn_sramProof (p : Pkt) (s : State) : (poolIn p s).sramProof = s.sramProof := rfl
@[simp] theorem poolIn_remaps (p : Pkt) (s : State) : (poolIn p s).remaps = s.remaps := rfl
@[simp] theorem poolIn_remapRun (p : Pkt) (s : State) : (poolIn p s).remapRun = s.remapRun := rfl
@[simp] theorem poolIn_svc (p : Pkt) (s : State) : (poolIn p s).svc = s.svc := rfl
@[simp] theorem poolIn_nextId (p : Pkt) (s : State) : (poolIn p s).nextId = s.nextId + 1 := rfl

/-! ### `advance` -/

@[simp] theorem advance_pending (n : Nat) (s : State) : (advance n s).pending = s.pending := rfl
@[simp] theorem advance_free (n : Nat) (s : State) : (advance n s).free = s.free := rfl
@[simp] theorem advance_part (n : Nat) (s : State) : (advance n s).part = s.part := rfl
@[simp] theorem advance_pins (n : Nat) (s : State) : (advance n s).pins = s.pins := rfl
@[simp] theorem advance_dev (n : Nat) (s : State) : (advance n s).dev = s.dev := rfl
@[simp] theorem advance_aon (n : Nat) (s : State) : (advance n s).aon = s.aon := rfl
@[simp] theorem advance_nextId (n : Nat) (s : State) : (advance n s).nextId = s.nextId := rfl
@[simp] theorem advance_regs (n : Nat) (s : State) : (advance n s).regs = s.regs := rfl
@[simp] theorem advance_cnt (n : Nat) (s : State) : (advance n s).cnt = s.cnt := rfl
@[simp] theorem advance_stat (n : Nat) (s : State) : (advance n s).stat = s.stat := rfl
@[simp] theorem advance_shadow (n : Nat) (s : State) : (advance n s).shadow = s.shadow := rfl
@[simp] theorem advance_cfgBad (n : Nat) (s : State) : (advance n s).cfgBad = s.cfgBad := rfl
@[simp] theorem advance_pclsWas (n : Nat) (s : State) : (advance n s).pclsWas = s.pclsWas := rfl
@[simp] theorem advance_tplWas (n : Nat) (s : State) : (advance n s).tplWas = s.tplWas := rfl
@[simp] theorem advance_ch (n : Nat) (s : State) : (advance n s).ch = s.ch := rfl
@[simp] theorem advance_searches (n : Nat) (s : State) : (advance n s).searches = s.searches := rfl
@[simp] theorem advance_replies (n : Nat) (s : State) : (advance n s).replies = s.replies := rfl
@[simp] theorem advance_sram (n : Nat) (s : State) : (advance n s).sram = s.sram := rfl
@[simp] theorem advance_vbad (n : Nat) (s : State) : (advance n s).vbad = s.vbad := rfl
@[simp] theorem advance_poisonSeen (n : Nat) (s : State) : (advance n s).poisonSeen = s.poisonSeen := rfl
@[simp] theorem advance_lentWait (n : Nat) (s : State) : (advance n s).lentWait = s.lentWait := rfl
@[simp] theorem advance_bgCur (n : Nat) (s : State) : (advance n s).bgCur = s.bgCur := rfl
@[simp] theorem advance_bgWait (n : Nat) (s : State) : (advance n s).bgWait = s.bgWait := rfl
@[simp] theorem advance_qm (n : Nat) (s : State) : (advance n s).qm = s.qm := rfl
@[simp] theorem advance_xpo (n : Nat) (s : State) : (advance n s).xpo = s.xpo := rfl
@[simp] theorem advance_se (n : Nat) (s : State) : (advance n s).se = s.se := rfl
@[simp] theorem advance_wdNext (n : Nat) (s : State) : (advance n s).wdNext = s.wdNext := rfl
@[simp] theorem advance_wdAt (n : Nat) (s : State) : (advance n s).wdAt = s.wdAt := rfl
@[simp] theorem advance_wdDisc (n : Nat) (s : State) : (advance n s).wdDisc = s.wdDisc := rfl
@[simp] theorem advance_bgNext (n : Nat) (s : State) : (advance n s).bgNext = s.bgNext := rfl
@[simp] theorem advance_bgAt (n : Nat) (s : State) : (advance n s).bgAt = s.bgAt := rfl
@[simp] theorem advance_bgPass (n : Nat) (s : State) : (advance n s).bgPass = s.bgPass := rfl
@[simp] theorem advance_pool (n : Nat) (s : State) : (advance n s).pool = s.pool := rfl
@[simp] theorem advance_mbx (n : Nat) (s : State) : (advance n s).mbx = s.mbx := rfl
@[simp] theorem advance_pg (n : Nat) (s : State) : (advance n s).pg = s.pg := rfl
@[simp] theorem advance_ring (n : Nat) (s : State) : (advance n s).ring = s.ring := rfl
@[simp] theorem advance_pcie (n : Nat) (s : State) : (advance n s).pcie = s.pcie := rfl
@[simp] theorem advance_brx (n : Nat) (s : State) : (advance n s).brx = s.brx := rfl
@[simp] theorem advance_fw (n : Nat) (s : State) : (advance n s).fw = s.fw := rfl
@[simp] theorem advance_prot (n : Nat) (s : State) : (advance n s).prot = s.prot := rfl
@[simp] theorem advance_saves (n : Nat) (s : State) : (advance n s).saves = s.saves := rfl
@[simp] theorem advance_log (n : Nat) (s : State) : (advance n s).log = s.log := rfl
@[simp] theorem advance_healQ (n : Nat) (s : State) : (advance n s).healQ = s.healQ := rfl
@[simp] theorem advance_sramProof (n : Nat) (s : State) : (advance n s).sramProof = s.sramProof := rfl
@[simp] theorem advance_remaps (n : Nat) (s : State) : (advance n s).remaps = s.remaps := rfl
@[simp] theorem advance_remapRun (n : Nat) (s : State) : (advance n s).remapRun = s.remapRun := rfl
@[simp] theorem advance_svc (n : Nat) (s : State) : (advance n s).svc = s.svc := rfl

/-! ### What they set -/

@[simp] theorem chan_modChan_same (c : Chn) (f : Chan → Chan) (s : State) : chan (modChan c f s) c = f (chan s c) := by
  simp [chan, modChan]

theorem chan_modChan_other {c d : Chn} (h : d ≠ c) (f : Chan → Chan) (s : State) : chan (modChan c f s) d = chan s d := by
  have : c.val ≠ d.val := fun e => h (Fin.ext e.symm)
  simp [chan, modChan, this]

@[simp] theorem pg_modPg_same (g : Fin 8) (f : Pg → Pg) (s : State) : (modPg g f s).pg[g] = f s.pg[g] := by simp [modPg]

theorem pg_modPg_other {g h : Fin 8} (e : h ≠ g) (f : Pg → Pg) (s : State) : (modPg g f s).pg[h] = s.pg[h] := by
  have : g.val ≠ h.val := fun x => e (Fin.ext x.symm)
  simp [modPg, this]

@[simp] theorem getReg_setReg_same (a : Nat) (v : Reg) (s : State) : getReg (setReg a v s) a = v := by
  unfold getReg setReg mgetD
  dsimp only
  split
  · rename_i h; rw [mget_mdel_same, h]; rfl
  · rw [mget_mset_same]; rfl

theorem getReg_setReg_other {a b : Nat} (h : b ≠ a) (v : Reg) (s : State) : getReg (setReg a v s) b = getReg s b := by
  unfold getReg setReg mgetD
  dsimp only
  split
  · rw [mget_mdel_other _ h]
  · rw [mget_mset_other _ h]

@[simp] theorem qDesc_setQDesc_same (q : Nat) (d : QDesc) (s : State) : qDesc (setQDesc q d s) q = d := by
  unfold qDesc setQDesc mgetD
  dsimp only
  split
  · rename_i h; rw [mget_mdel_same, h]; rfl
  · rw [mget_mset_same]; rfl

theorem qDesc_setQDesc_other {q r : Nat} (h : r ≠ q) (d : QDesc) (s : State) : qDesc (setQDesc q d s) r = qDesc s r := by
  unfold qDesc setQDesc mgetD
  dsimp only
  split
  · rw [mget_mdel_other _ h]
  · rw [mget_mset_other _ h]

@[simp] theorem getReg_modChan (c : Chn) (f : Chan → Chan) (s : State) (a : Nat) : getReg (modChan c f s) a = getReg s a := rfl

@[simp] theorem getReg_modPg (g : Fin 8) (f : Pg → Pg) (s : State) (a : Nat) : getReg (modPg g f s) a = getReg s a := rfl

@[simp] theorem leadOf_modChan (d : Chn) (f : Chan → Chan) (s : State) (c : Chn) : leadOf (modChan d f s) c = leadOf s c := rfl

@[simp] theorem groupOf_modChan (d : Chn) (f : Chan → Chan) (s : State) (c : Chn) : groupOf (modChan d f s) c = groupOf s c := rfl

@[simp] theorem rawWord_modChan (c : Chn) (f : Chan → Chan) (s : State) (w : Nat) : rawWord (modChan c f s) w = rawWord s w := rfl

@[simp] theorem replied_replies (op : Byte) (p : Pkt) (id : Nat) (st : Byte) (info : BitVec 24) (pay : List Word) (ready : Nat) (s : State) :
    (replied op p id st info pay ready s).replies =
      s.replies ++ [{ ap := p.ap, op := op, status := st, tag := p.tag, info := info, pay := pay, id := id, ready := ready }] := rfl

@[simp] theorem checkedIn_nextId (p : Pkt) (s : State) : (checkedIn p s).nextId = s.nextId + 1 := rfl

@[simp] theorem advance_cclk (n : Nat) (s : State) : (advance n s).cclk = s.cclk + n := rfl

end Sys2Proof.Laws
end

