-- ==== Sys2Proof/Laws/Afterwards.lean ====
section
/-! SUPPORT. What each part of `afterwards` may change, said once. -/

namespace Sys2Proof.Laws
open Sys2Proof.Machine

/-- A fold keeps a reflexive and transitive relation to its start that each of its steps keeps. -/
theorem foldl_rel {α β : Type} {r : α → α → Prop} (hr : ∀ a, r a a) (ht : ∀ {a b c}, r a b → r b c → r a c) {f : α → β → α}
    (hf : ∀ a b, r a (f a b)) (l : List β) (a : α) : r a (l.foldl f a) := by
  induction l generalizing a with
  | nil => exact hr a
  | cons b t ih => exact ht (hf a b) (ih _)

/-- `u` is `s` but for the power state of each channel and whether it serves. -/
def PowerOnly (s u : State) : Prop :=
  (∃ c, u = { s with ch := c }) ∧ ∀ c : Chn, chan u c = { chan s c with pwr := (chan u c).pwr, ready := (chan u c).ready }

/-- `u` is `s` but for the credit hold-off of each port group, and its count. -/
def HoldOnly (s u : State) : Prop :=
  (∃ p k, u = { s with pg := p, stat := k }) ∧ ∀ g : Fin 8, u.pg[g] = { s.pg[g] with holdAt := u.pg[g].holdAt }

/-- `u` is `s` but for the saves, the image buffers and the free values drawn. -/
def SaveOnly (s u : State) : Prop := ∃ v a f, u = { s with saves := v, aon := a, free := f }

theorem PowerOnly.refl (s : State) : PowerOnly s s := ⟨⟨s.ch, rfl⟩, fun _ => rfl⟩

theorem PowerOnly.trans {s u v : State} (h : PowerOnly s u) (k : PowerOnly u v) : PowerOnly s v := by
  refine ⟨?_, fun c => by rw [k.2 c, h.2 c]⟩
  obtain ⟨c, e⟩ := h.1
  obtain ⟨d, e'⟩ := k.1
  exact ⟨d, by rw [e', e]⟩

theorem HoldOnly.refl (s : State) : HoldOnly s s := ⟨⟨s.pg, s.stat, rfl⟩, fun _ => rfl⟩

theorem HoldOnly.trans {s u v : State} (h : HoldOnly s u) (k : HoldOnly u v) : HoldOnly s v := by
  refine ⟨?_, fun g => by rw [k.2 g, h.2 g]⟩
  obtain ⟨p, q, e⟩ := h.1
  obtain ⟨p', q', e'⟩ := k.1
  exact ⟨p', q', by rw [e', e]⟩

theorem PowerOnly.ite {s u v : State} {p : Prop} [Decidable p] (h : PowerOnly s u) (k : PowerOnly s v) :
    PowerOnly s (if p then u else v) := by
  split
  · exact h
  · exact k

/-- A change of a channel's power state or readiness. -/
theorem modChan_powerOnly (c : Chn) (f : Chan → Chan) (hf : ∀ k, f k = { k with pwr := (f k).pwr, ready := (f k).ready }) (s : State) :
    PowerOnly s (modChan c f s) := by
  refine ⟨⟨_, rfl⟩, fun d => ?_⟩
  by_cases h : d = c
  · subst h; rw [chan_modChan_same]; exact hf _
  · rw [chan_modChan_other h]

theorem modPwr_powerOnly (c : Chn) (f : Pwr → Pwr) (s : State) : PowerOnly s (modPwr c f s) := modChan_powerOnly _ _ (fun _ => rfl) s

theorem startWake_powerOnly (c : Chn) (n : Nat) (s : State) : PowerOnly s (startWake c n s) := by
  unfold startWake
  dsimp only
  split
  · exact PowerOnly.refl s
  · split
    · exact modPwr_powerOnly ..
    · split
      · exact PowerOnly.refl s
      · exact modPwr_powerOnly ..

theorem settleWindows_powerOnly (c : Chn) (s : State) : PowerOnly s (settleWindows c s) := by
  unfold settleWindows
  exact PowerOnly.ite (PowerOnly.refl s) (modPwr_powerOnly ..)

theorem holdIdle_powerOnly (c : Chn) (h : Bool) (s : State) : PowerOnly s (holdIdle c h s) := by
  unfold holdIdle
  exact PowerOnly.ite (PowerOnly.refl s) (modPwr_powerOnly ..)

theorem wakeHeld_powerOnly (c : Chn) (x : Bool × Bool × Bool × Bool) (s : State) : PowerOnly s (wakeHeld c x s) := by
  unfold wakeHeld
  exact PowerOnly.ite (startWake_powerOnly ..) (PowerOnly.refl s)

theorem settlePower_only (s : State) : PowerOnly s (settlePower s) := by
  unfold settlePower
  split
  · exact PowerOnly.refl s
  · refine foldl_rel PowerOnly.refl PowerOnly.trans (fun a i => ?_) _ _
    refine PowerOnly.ite ?_ (PowerOnly.refl a)
    exact (settleWindows_powerOnly ..).trans ((holdIdle_powerOnly ..).trans (wakeHeld_powerOnly ..))

theorem settleHold_only (s : State) : HoldOnly s (settleHold s) := by
  unfold settleHold
  split
  · exact HoldOnly.refl s
  · refine foldl_rel HoldOnly.refl HoldOnly.trans (fun a i => ?_) _ _
    have h : ∀ (u : State) (x : Option Nat), HoldOnly u (modPg (pgn i) (fun p => { p with holdAt := x }) u) := by
      intro u x
      refine ⟨⟨_, u.stat, rfl⟩, fun g => ?_⟩
      by_cases e : g = pgn i
      · subst e; rw [pg_modPg_same]
      · rw [pg_modPg_other e]
    dsimp only
    split
    · exact HoldOnly.trans (u := addStat _ _ a) ⟨⟨a.pg, _, rfl⟩, fun _ => rfl⟩ (h _ _)
    · exact h _ _

theorem pumpSave_only (s : State) : SaveOnly s (pumpSave s) := by
  unfold pumpSave
  split
  · exact ⟨s.saves, s.aon, s.free, rfl⟩
  · split
    · dsimp only
      have hn : ∀ (g : Option (Bool × Image)) (u : State), ∃ f, (nextGen g u).2 = { u with free := f } := by
        intro g u
        unfold nextGen
        split
        · exact ⟨u.free, rfl⟩
        · split
          · exact ⟨u.free, rfl⟩
          · exact ⟨_, rfl⟩
      have hb : ∀ (g : Option (Bool × Image)) (u : State), ∃ f, (saveBuffer g u).2 = { u with free := f } := by
        intro g u
        unfold saveBuffer
        split
        · exact ⟨u.free, rfl⟩
        · exact ⟨_, rfl⟩
      obtain ⟨f, e⟩ := hn (newestImage s) s
      obtain ⟨f', e'⟩ := hb (newestImage s) (nextGen (newestImage s) s).2
      have ho : ∀ (b : Bool) (u : State), ∃ a, openBuffer b u = { u with aon := a } := by
        intro b u
        unfold openBuffer
        split
        · exact ⟨_, rfl⟩
        · exact ⟨u.aon, rfl⟩
      obtain ⟨a, e''⟩ := ho (saveBuffer (newestImage s) (nextGen (newestImage s) s).2).1 _
      rw [e'', e', e]
      exact ⟨_, _, _, rfl⟩
    · exact ⟨s.saves, s.aon, s.free, rfl⟩

theorem settleReady_only (s : State) : PowerOnly s (settleReady s) := by
  unfold settleReady
  split
  · exact PowerOnly.refl s
  · refine foldl_rel PowerOnly.refl PowerOnly.trans (fun a l => ?_) _ _
    split
    · exact PowerOnly.refl a
    · exact modChan_powerOnly _ _ (fun _ => rfl) a

end Sys2Proof.Laws
end

