-- ==== Sys2Proof/Laws/Ops.lean ====
section
/-! SUPPORT. What each shared operation can do, said once: the fields it may change, and nothing else. -/

namespace Sys2Proof.Laws
open Sys2Proof.Machine

/-- `u` is `s` but for the events staged, the spillway's store and the anomaly counters: what counting and posting may change. -/
def Posted (s u : State) : Prop :=
  ∃ c st sp de dr, u = { s with cnt := c, qm := { s.qm with staged := st, spill := sp, desc := de, dropped := dr } }

theorem Posted.refl (s : State) : Posted s s := ⟨s.cnt, s.qm.staged, s.qm.spill, s.qm.desc, s.qm.dropped, rfl⟩

theorem Posted.trans {s u v : State} (h : Posted s u) (k : Posted u v) : Posted s v := by
  obtain ⟨c, st, sp, de, dr, rfl⟩ := h
  obtain ⟨c', st', sp', de', dr', rfl⟩ := k
  exact ⟨c', st', sp', de', dr', rfl⟩

/-- Sending an event to the spillway counts and stores, or drops it. -/
theorem spillWith_posted {b : State → State} (hb : ∀ s, Posted s (b s)) (e : Event) (q : BitVec 18) (r : BitVec 2) (s : State) :
    Posted s (spillWith b e q r s) := by
  unfold spillWith
  dsimp only
  split
  · exact ⟨_, _, _, _, _, rfl⟩
  · exact Posted.trans ⟨_, _, _, _, _, rfl⟩ (hb _)

/-- Staging an event stores it, or sends it to the spillway. -/
theorem stage_posted {b : State → State} (hb : ∀ s, Posted s (b s)) (x : Staged) (s : State) : Posted s (stage b x s) := by
  unfold stage
  split
  · exact ⟨_, _, _, _, _, rfl⟩
  · exact Posted.trans ⟨_, _, _, _, _, rfl⟩ (spillWith_posted hb _ _ _ _)

/-- Posting an event in the present CCLK stages it. -/
theorem postWith_posted {b : State → State} (hb : ∀ s, Posted s (b s)) (r : Nat) (q : BitVec 18) (e : Event) (s : State) :
    Posted s (postWith b r q e s) := by
  unfold postWith postWithAt
  dsimp only
  rw [if_neg (Nat.lt_irrefl _)]
  exact stage_posted hb _ s

theorem rawBump_posted (a : Nat) (s : State) : Posted s (rawBump a s) := ⟨_, _, _, _, _, rfl⟩

theorem bumpDrop_posted (s : State) : Posted s (bumpDrop s) := by
  unfold bumpDrop
  dsimp only
  split
  · exact (rawBump_posted _ s).trans (postWith_posted Posted.refl _ _ _ _)
  · exact rawBump_posted _ s

/-- Counting an anomaly changes its counter and may post its saturation. -/
theorem bump_posted (a : Nat) (s : State) : Posted s (bump a s) := by
  unfold bump
  dsimp only
  split
  · exact (rawBump_posted _ s).trans (postWith_posted bumpDrop_posted _ _ _ _)
  · exact rawBump_posted _ s

theorem post_posted (r : Nat) (q : BitVec 18) (e : Event) (s : State) : Posted s (post r q e s) :=
  postWith_posted bumpDrop_posted _ _ _ s

theorem postDev_posted (r : Nat) (e : Event) (s : State) : Posted s (postDev r e s) := post_posted _ _ _ s

end Sys2Proof.Laws
end

