-- ==== Sys2Proof/Laws/Memory.lean ====
section
/-! SUPPORT. The SRAM: what a store and a read do to the state, and that every operation on it keeps its canonical form. -/

namespace Sys2Proof.Laws
open Sys2Proof.Machine

/-! ### What the operations change -/

/-- A store changes the word and whether it is valid, the heals that wait and the poison met. -/
theorem storeMem_frame (w : Nat) (x : SWord) (s : State) :
    ∃ v p h, storeMem w x s = { s with sram := mset s.sram w x, vbad := v, poisonSeen := p, healQ := h } := by
  unfold storeMem cancelHeal rearm
  dsimp only
  split <;> exact ⟨_, _, _, rfl⟩

@[simp] theorem storeMem_sram (w : Nat) (x : SWord) (s : State) : (storeMem w x s).sram = mset s.sram w x := by
  obtain ⟨v, p, h, e⟩ := storeMem_frame w x s
  rw [e]

@[simp] theorem writeMem_sram (w : Nat) (be : Byte) (v : Word) (s : State) :
    (writeMem w be v s).sram = mset s.sram w (writeLanes (rawWord s w) be v) := storeMem_sram ..

theorem writeMem_frame (w : Nat) (be : Byte) (v : Word) (s : State) :
    ∃ m b p h, writeMem w be v s = { s with sram := m, vbad := b, poisonSeen := p, healQ := h } := by
  obtain ⟨b, p, h, e⟩ := storeMem_frame w (writeLanes (rawWord s w) be v) s
  exact ⟨_, b, p, h, e⟩

/-- Writing words in a row changes nothing but the SRAM, its valid bits, the heals that wait and the poison met. -/
theorem writeList_frame (w : Nat) (l : List (Word × Nat)) (s : State) :
    ∃ m b p h, l.foldl (fun s x => writeMem (w + x.2) 0xff x.1 s) s = { s with sram := m, vbad := b, poisonSeen := p, healQ := h } := by
  induction l generalizing s with
  | nil => exact ⟨_, _, _, _, rfl⟩
  | cons x t ih =>
    obtain ⟨m, b, p, h, e⟩ := writeMem_frame (w + x.2) 0xff x.1 s
    obtain ⟨m', b', p', h', e'⟩ := ih (writeMem (w + x.2) 0xff x.1 s)
    exact ⟨m', b', p', h', by rw [List.foldl_cons, e', e]⟩

theorem writeMems_frame (w : Nat) (vs : List Word) (s : State) :
    ∃ m b p h, writeMems w vs s = { s with sram := m, vbad := b, poisonSeen := p, healQ := h } := writeList_frame w _ s

theorem clearMem_frame (lo hi : Nat) (s : State) :
    ∃ m b p h, clearMem lo hi s = { s with sram := m, vbad := b, poisonSeen := p, healQ := h } := ⟨_, _, _, _, rfl⟩

theorem logRec_frame (k m d : Nat) (b : BitVec 16) (l : Nat) (s : State) : ∃ g, logRec k m d b l s = { s with log := g } := ⟨_, rfl⟩

/-- `u` is `s` but for what a read of the SRAM may report: events, counters, log, poison met, heals that wait. -/
def ReadLeaves (s u : State) : Prop :=
  ∃ v l p h, Posted s v ∧ u = { v with log := l, poisonSeen := p, healQ := h }

theorem posted_readLeaves {s u : State} (h : Posted s u) : ReadLeaves s u := ⟨u, u.log, u.poisonSeen, u.healQ, h, rfl⟩

theorem ReadLeaves.refl (s : State) : ReadLeaves s s := posted_readLeaves (Posted.refl s)

/-- Posting acts on the events and counters alone, so a change of the other fields before it may be made after it. -/
theorem ReadLeaves.trans {s u v : State} (h : ReadLeaves s u) (k : ReadLeaves u v) : ReadLeaves s v := by
  obtain ⟨a, l, p, q, ⟨c, st, sp, de, dr, rfl⟩, rfl⟩ := h
  obtain ⟨b, l', p', q', ⟨c', st', sp', de', dr', rfl⟩, rfl⟩ := k
  exact ⟨_, l', p', q', ⟨c', st', sp', de', dr', rfl⟩, rfl⟩

theorem metPoison_leaves (m l a : Nat) (k : Byte) (s : State) : ReadLeaves s (metPoison m l a k s) := by
  unfold metPoison
  dsimp only
  split
  · exact posted_readLeaves (bump_posted _ s)
  · refine (posted_readLeaves (bump_posted (0x80108 + m * 0x10) s)).trans (ReadLeaves.trans ?_ (posted_readLeaves (postDev_posted _ _ _)))
    exact ⟨_, _, _, _, Posted.refl _, rfl⟩

theorem noteRead_leaves (m l a : Nat) (h : Health) (k : Byte) (s : State) : ReadLeaves s (noteRead m l a h k s) := by
  cases h
  · exact ReadLeaves.refl s
  · exact posted_readLeaves (bump_posted _ s)
  · exact metPoison_leaves m l a k s

theorem offerHeal_leaves (k : Nat) (s : State) : ReadLeaves s (offerHeal k s) := by
  unfold offerHeal
  split
  · exact ReadLeaves.refl s
  · split
    · exact ⟨s, s.log, s.poisonSeen, _, Posted.refl s, rfl⟩
    · exact posted_readLeaves (bump_posted _ s)

/-- A read of an SRAM word leaves the SRAM alone. -/
theorem readMem_leaves (w : Nat) (s : State) : ReadLeaves s (readMem w s).2.2 := by
  unfold readMem
  dsimp only
  split
  · exact noteRead_leaves ..
  · exact (noteRead_leaves ..).trans (offerHeal_leaves _ _)
  · exact noteRead_leaves ..

theorem ReadLeaves.sram {s u : State} (h : ReadLeaves s u) : u.sram = s.sram := by
  obtain ⟨a, l, p, q, ⟨c, st, sp, de, dr, rfl⟩, rfl⟩ := h
  rfl

theorem ReadLeaves.regs {s u : State} (h : ReadLeaves s u) : u.regs = s.regs := by
  obtain ⟨a, l, p, q, ⟨c, st, sp, de, dr, rfl⟩, rfl⟩ := h
  rfl

theorem ReadLeaves.replies {s u : State} (h : ReadLeaves s u) : u.replies = s.replies := by
  obtain ⟨a, l, p, q, ⟨c, st, sp, de, dr, rfl⟩, rfl⟩ := h
  rfl

/-! ### The canonical form -/

theorem reset_sram : State.reset.sram = [] := rfl

theorem reset_wf : Memory.wf State.reset.sram = true := by
  rw [reset_sram]
  rfl

theorem storeMem_wf {s : State} (h : Memory.wf s.sram = true) (w : Nat) (x : SWord) : Memory.wf (storeMem w x s).sram = true := by
  rw [storeMem_sram]
  exact mset_mwf h w x

theorem writeMem_wf {s : State} (h : Memory.wf s.sram = true) (w : Nat) (be : Byte) (v : Word) :
    Memory.wf (writeMem w be v s).sram = true := storeMem_wf h w _

theorem writeMems_wf {s : State} (h : Memory.wf s.sram = true) (w : Nat) (vs : List Word) : Memory.wf (writeMems w vs s).sram = true := by
  unfold writeMems
  generalize vs.zipIdx = l
  induction l generalizing s with
  | nil => exact h
  | cons x t ih =>
    rw [List.foldl_cons]
    exact ih (writeMem_wf h (w + x.2) 0xff x.1)

theorem clearMem_wf {s : State} (h : Memory.wf s.sram = true) (lo hi : Nat) : Memory.wf (clearMem lo hi s).sram = true := filter_mwf h _

theorem readMem_wf {s : State} (h : Memory.wf s.sram = true) (w : Nat) : Memory.wf (readMem w s).2.2.sram = true := by
  rw [(readMem_leaves w s).sram]
  exact h

/-- Threading a free buffer (12 R301, R309). -/
theorem linkTo_wf {s : State} (h : Memory.wf s.sram = true) (b next : Nat) : Memory.wf (linkTo b next s).sram = true := by
  unfold linkTo
  dsimp only
  split
  · exact mdel_mwf h _
  · exact writeMem_wf h _ _ _

theorem sealTail_wf {s : State} (h : Memory.wf s.sram = true) (b : Nat) : Memory.wf (sealTail b s).sram = true := by
  unfold sealTail
  dsimp only
  split
  · exact writeMem_wf h _ _ _
  · exact h

/-- The copy of a memory row with its correctable bytes corrected (13 R338). -/
theorem healRow_wf {m : Sram} (h : Memory.wf m = true) (mem lo : Nat) (s : State) : Memory.wf (healRow mem lo m s).1 = true := by
  have e : (healRow mem lo m s).1 =
      m.map fun x => (x.1, if decide (lo ≤ x.1) && decide (x.1 < lo + 128) then healWord x.2 else x.2) := by
    unfold healRow
    refine List.map_congr_left fun x _ => ?_
    dsimp only
    split <;> rfl
  rw [e]
  exact map_mwf h _

/-- What a reset keeps of the SRAM (17 R403). -/
theorem coreReset_wf {s : State} (h : Memory.wf s.sram = true) (keep link : Bool) : Memory.wf (coreReset keep link s).sram = true := by
  unfold coreReset
  dsimp only
  split
  · exact filter_mwf h _
  · rfl

end Sys2Proof.Laws
end

