-- ==== Sys2Proof/Laws/Settle.lean ====
section
/-! SUPPORT. What follows a command in a state where nothing waits: the units take nothing, and `settle` is `afterwards`. -/

namespace Sys2Proof.Laws
open Sys2Proof.Machine

theorem running_of_run {s : State} (h : s.dev.st = .run) : running s = true := by simp [running, h]

/-- An update unit with an empty queue takes nothing. -/
theorem pumpUnit_empty {l : Chn} {s : State} (h : (chan s l).upd.queue = []) (n : Nat) : pumpUnit l n s = s := by
  cases n <;> simp [pumpUnit, h]

/-- The update units take nothing when their queues are empty. -/
theorem pumpAll_empty {s : State} (h : ∀ c : Chn, (chan s c).upd.queue = []) : pumpAll s = s := by
  unfold pumpAll
  split
  · rfl
  · simp only [show List.range 4 = [0, 1, 2, 3] from rfl, List.foldl_cons, List.foldl_nil, pumpUnit_empty (h _), ite_self]

/-- The firmware takes nothing from an empty queue. -/
theorem fwDrain_empty {s : State} (h : s.fw.queue = []) (n : Nat) : fwDrain n s = s := by
  cases n <;> simp [fwDrain, h]

/-- No event waits for its CCLK. -/
theorem offerSoon_empty {s : State} (h : s.qm.soon = []) : offerSoon s = s := by
  unfold offerSoon
  rw [h]
  show { s with qm := { s.qm with soon := [] } } = s
  rw [← h]

/-- No command is held back for device DARKROOM. -/
theorem runLate_empty {s : State} (h : s.dev.late = []) : runLate s = s := by
  unfold runLate
  split
  · rfl
  · simp only [h, List.foldl_nil]
    rw [← h]

/-- The units with a queue of their own take nothing when they hold nothing and no lane has an access to make. -/
theorem serveUnits_empty {s : State} (h : unitsWait s = false) (hl : lanesDue s.cclk s = []) : serveUnits s = s := by
  simp only [unitsWait, Bool.not_eq_false', Bool.and_eq_true, List.isEmpty_iff] at h
  obtain ⟨⟨⟨h1, h2⟩, h3⟩, h4⟩ := h
  have hp : ∀ f g k, poolServe f g k s = s := fun f g k => by simp [poolServe, h3, h4]
  have hq : qmServe s = s := by simp [qmServe, qmTake, h2]
  have hs : seTake 64 s = s := by simp [seTake, h1]
  simp only [serveUnits, hp, hq, seServe, hs, settleLanes, hl, List.mergeSort_nil, List.foldl_nil]

/-- No ECHO waits for slots. -/
theorem echoTake_empty {s : State} (h : s.dev.echoes = []) : echoTake s = s := by
  unfold echoTake
  rw [h, List.foldl_nil]

/-- No cell waits at this member. -/
theorem pumpRing_empty {s : State} (h : s.ring.wait = []) : pumpRing s = s := by
  unfold pumpRing
  rw [h, List.foldl_nil, ← h]

/-- No frame slot has begun since the last one filled. -/
theorem pumpFrames_empty {s : State} (h : ∀ east : Bool, framesDue s east = 0) : pumpFrames s = s := by
  simp only [pumpFrames, h true, sendFrames, h false]

/-- No queue has changed. -/
theorem settleQs_empty {s : State} (h : s.qm.touched = []) : settleQs s = s := by
  unfold settleQs
  split
  · rfl
  · unfold settleTouched
    rw [h, List.foldl_nil, ← h]

/-- No further packet passes its check in the same CCLK. -/
theorem moreNow_of_moreQ {s : State} (h : moreQ s = false) : moreNow s = false := by
  simp only [moreQ, Bool.or_eq_false_iff] at h
  exact h.1

/-- With no event, held-back command, unit command or update command waiting, the firmware is the first to act. -/
theorem settle_ahead {s : State} (h : s.dev.st = .run) (hm : moreQ s = false) (hs : s.qm.soon = []) (hl : s.dev.late = [])
    (he : s.dev.echoes = []) (hw : unitsWait s = false) (hd : lanesDue s.cclk s = []) (hu : ∀ c : Chn, (chan s c).upd.queue = []) :
    settle s = afterwards (settleQs (pumpFrames (pumpRing (pumpAll (fwDrain 65 s))))) := by
  unfold settle settleRun
  simp only [running_of_run h, if_true, offerSoon_empty hs, moreNow_of_moreQ hm, Bool.false_eq_true, if_false, settleUnits, runLate_empty hl,
    echoTake_empty he, serveUnits_empty hw hd, pumpAll_empty hu]

/-- The units behind the firmware take nothing in a calm state. -/
theorem units_calm {s : State} (h : Calm s) : settleQs (pumpFrames (pumpRing (pumpAll s))) = s := by
  rw [pumpAll_empty h.upd, pumpRing_empty h.wait, pumpFrames_empty h.frames, settleQs_empty h.touched]

/-- In a calm state only `afterwards` is left of `settle`. -/
theorem settle_calm {s : State} (h : Calm s) : settle s = afterwards s := by
  rw [settle_ahead h.run h.more h.soon h.late h.echoes h.units h.lanes h.upd, fwDrain_empty h.queue, units_calm h]

/-- A serving part runs a good packet in the unit of its opcode. -/
theorem packet_serving {s : State} (h : Serving s) {op : Byte} {p : Pkt} (ho : opcodes.contains op = true) (hp : GoodHead op p) :
    packet op p s = dispatch (cmdOf op p s) (checkedIn p s) := by
  have hb : headerBad (cmdOf op p s) = false := by
    obtain ⟨h1, h2, h3⟩ := hp
    simp only [headerBad, cmdOf, h1, h2, bne_self_eq_false, Bool.false_or]
    simp only [Bool.and_eq_false_imp, List.contains_eq_mem, decide_eq_true_eq, List.mem_cons, List.not_mem_nil, or_false,
      beq_eq_false_iff_ne]
    rintro (rfl | rfl | rfl) <;> exact h3 rfl
  have hc : closing (checkedIn p s) = false := h.stays
  unfold packet
  simp only [h.run, hb, ho, hc, ne_eq, not_true_eq_false, if_false, Bool.not_true, Bool.false_eq_true]

/-- The firmware takes a command that nothing keeps waiting. -/
theorem fwDrain_take {s v : State} {c : Cmd} {t : List Cmd} (hq : s.fw.queue = c :: t) (hu : s.fw.up = true)
    (hw : s.fw.switchWait = false) (hb : fwBusy s = false) (hp : s.fw.parked.any (waitsFor s c) = false)
    (hr : heldBack s c = false) (hv : fwExec false c { s with fw := { s.fw with queue := t } } = v) (hl : v.fw.parked.length ≤ 8) (k : Nat) :
    fwDrain (k + 1) s = fwDrain k v := by
  subst hv
  have hg : (!s.fw.up || s.fw.switchWait || fwBusy s || s.fw.parked.any (waitsFor s c) || heldBack s c) = false := by simp [hu, hw, hb, hp, hr]
  rw [fwDrain, hq]
  dsimp only
  rw [hg, if_neg (by decide)]
  exact if_neg (Nat.not_lt.mpr hl)

/-- The longest reply whose slots a command has reserved with its place (14 R347). -/
theorem heldBack_small {s : State} {c : Cmd} (h : replyLen c ≤ 51) (hj : jobsRun s c = false) : heldBack s c = false := by
  have : slotsFor (min 255 (replyLen c)) ≤ 13 := by simp only [slotsFor, cdiv]; omega
  simp [heldBack, slotsShort, hj, Nat.not_lt.mpr this]

/-- A command that the firmware runs at once: what follows is the state that its run leaves. -/
theorem settle_firmware {s v : State} {c : Cmd} (h : FwReady s) (hr : heldBack { s with fw := { s.fw with queue := [c] } } c = false)
    (hv : fwExec false c s = v) (cv : Calm v) (hp : v.fw.parked.length ≤ 8) :
    settle { s with fw := { s.fw with queue := [c] } } = afterwards v := by
  have he : { s with fw := { s.fw with queue := [] } } = s := by rw [← h.queue]
  have hn : s.fw.parked.any (waitsFor { s with fw := { s.fw with queue := [c] } } c) = false := by simp [h.noPark]
  have hd := fwDrain_take (s := { s with fw := { s.fw with queue := [c] } }) rfl h.up h.noSwitch h.free hn hr ((congrArg _ he).trans hv) hp 64
  rw [settle_ahead (s := { s with fw := { s.fw with queue := [c] } }) h.run h.more h.soon h.late h.echoes h.units h.lanes h.upd, hd,
    fwDrain_empty cv.queue, units_calm cv]

/-- A firmware command that passes its check is run at once. -/
theorem packet_firmware {s v : State} (h : FwReady s) {op : Byte} {p : Pkt} (ho : opcodes.contains op = true) (hp : GoodHead op p)
    (hd : dispatch (cmdOf op p s) (checkedIn p s) = fwArrive (cmdOf op p s) (checkedIn p s))
    (hr : Roomy op p s) (hv : fwExec false (cmdOf op p s) (takenIn p s) = v) (cv : Calm v) (hl : v.fw.parked.length ≤ 8) :
    settle (packet op p s) = afterwards v := by
  rw [packet_serving h.toServing ho hp, hd]
  have hq : s.fw.queue = [] := h.queue
  have hc : FwReady (takenIn p s) :=
    { run := h.run, more := h.more, soon := h.soon, late := h.late, echoes := h.echoes, units := h.units, lanes := h.lanes, upd := h.upd, queue := h.queue
      wait := h.wait, frames := h.frames, touched := h.touched, valid := h.valid, stays := h.stays, up := h.up, boot := h.boot, noSwitch := h.noSwitch
      free := h.free, noPark := h.noPark }
  rw [← settle_firmware hc hr hv cv hl]
  have hj : joinQueue 64 (cmdOf op p s) s.fw.arb [] = (s.fw.arb.ask (cmdOf 0 p s) [], [cmdOf op p s], none) := rfl
  unfold fwArrive
  rw [if_neg (show (checkedIn p s).fw.bootSrc ≠ 2 from h.boot), show (checkedIn p s).fw.queue = [] from hq,
    show (checkedIn p s).fw.arb = s.fw.arb from rfl, hj]
  rfl

end Sys2Proof.Laws
end

