-- ==== Sys2Proof/Tests/Slice0.lean ====
section
/-! SUPPORT. The author's tests: an ill-formed command for each check of WellFormed, and single steps and functions against the worked
examples of the spec, whose numbers are the expected results. -/

namespace Sys2Proof.Tests

/- One proof at a time: each waits for the kernel, and all at once would take a thread each. -/
set_option Elab.async false

open Sys2Proof Sys2Proof.Machine

/-! ### WellFormed refuses a command that is not of its row -/

/-- A packet of PG0. -/
def pkt (arg : BitVec 24) (pay : List Word) : Pkt := { ap := 0, arg := arg, pay := pay }

theorem test_wf_nop : (Instr.nop (pkt 0 [])).wf = true := by decide
/-- 15 R369: `length` has eight bits. -/
theorem test_wf_payload : (Instr.nop (pkt 0 (List.replicate 256 0))).wf = false := by decide +kernel
/-- 0x10 is SRCH (15 Table 15.4). -/
theorem test_wf_unlisted : (Instr.unlistedOpcode 0x10 (pkt 0 [])).wf = false := by decide
theorem test_wf_negCommit : (Instr.negCommit (pkt 0x100 [])).wf = false := by decide
theorem test_wf_negCommitAtPhase : (Instr.negCommitAtPhase (pkt 0 [])).wf = false := by decide
theorem test_wf_qCfg : (Instr.qCfg (pkt 0x40000 [])).wf = false := by decide
theorem test_wf_qCfgRead : (Instr.qCfgRead (pkt 0 [])).wf = false := by decide
theorem test_wf_chState : (Instr.chState (pkt 0x800000 [])).wf = false := by decide
theorem test_wf_chStateDeviceDarkroom : (Instr.chStateDeviceDarkroom (pkt 0 [])).wf = false := by decide
theorem test_wf_timeSet : (Instr.timeSet (pkt 1 [])).wf = false := by decide
theorem test_wf_timeSetAtPps : (Instr.timeSetAtPps (pkt 0 [])).wf = false := by decide
theorem test_wf_timeAdjRate : (Instr.timeAdjRate (pkt 1 [])).wf = false := by decide
theorem test_wf_timeAdjStep : (Instr.timeAdjStep (pkt 2 [])).wf = false := by decide
theorem test_wf_timeAdjSlew : (Instr.timeAdjSlew (pkt 1 [])).wf = false := by decide
theorem test_wf_cygCfg : (Instr.cygCfg (pkt 0x10 [])).wf = false := by decide
theorem test_wf_cygCfgOff : (Instr.cygCfgOff (pkt 0 [])).wf = false := by decide
theorem test_wf_repairBlock : (Instr.repairBlock (pkt 0x800000 [])).wf = false := by decide
theorem test_wf_repairRowRemap : (Instr.repairRowRemap (pkt 0 [])).wf = false := by decide
theorem test_wf_devReset : (Instr.devReset (pkt 0x10000 [])).wf = false := by decide
theorem test_wf_devResetChannel : (Instr.devResetChannel (pkt 0 [])).wf = false := by decide
theorem test_wf_registerWrite_range : (Instr.registerWrite 0x200000 0).wf = false := by decide
theorem test_wf_registerWrite_aligned : (Instr.registerWrite 0x10002 0).wf = false := by decide
theorem test_wf_profCtlWrite : (Instr.profCtlWrite 0x92000 0).wf = false := by decide
theorem test_wf_kbTplWrite : (Instr.kbTplWrite 0x51000 0).wf = false := by decide
/-- A write of no byte, and a write with no data (12 R297). -/
theorem test_wf_mailbox_bytes :
    (Instr.mailboxWindowAccess { m := 0, write := true, word := 5, be := 0, checked := 0, data := [0] } []).wf = false := by decide
theorem test_wf_mailbox_data :
    (Instr.mailboxWindowAccess { m := 0, write := true, word := 5, be := 1, checked := 0 } []).wf = false := by decide
/-- A read of one byte, and a command's accesses that run past the mailbox (12 R287, R297). -/
theorem test_wf_mailbox_read :
    (Instr.mailboxWindowAccess { m := 0, write := false, word := 5, be := 1, checked := 0 } []).wf = false := by decide
theorem test_wf_mailbox_end :
    (Instr.mailboxWindowAccess { m := 0, write := false, word := 32767, be := 0xff, checked := 0, who := .mem 1, n := 2 } []).wf = false := by
  decide
theorem test_wf_pcieUnmapped : (Instr.pcieUnmappedAccess false 0x2000000).wf = false := by decide
theorem test_wf_keyCell : (Instr.keyCellReceive false ⟨0, 0, 0, 0, 0, List.replicate 81 0⟩).wf = false := by decide +kernel
theorem test_wf_resultCell_none : (Instr.resultCellMerge false ⟨0, 0, 0, [], none⟩).wf = false := by decide
theorem test_wf_resultCell_ad : (Instr.lateResultCell ⟨0, 0, 0, [⟨0, List.replicate 9 0⟩], none⟩).wf = false := by decide +kernel
theorem test_wf_formationCell : (Instr.formationCell (List.replicate 9 ⟨0, 0, 0⟩)).wf = false := by decide +kernel
theorem test_wf_geometryCell : (Instr.geometryCell 0 0 ⟨1, 4, [0]⟩).wf = false := by decide
theorem test_wf_cascadeFrame : (Instr.cascadeFrameReceive false ⟨[], 0⟩).wf = false := by decide
theorem test_wf_commandFetch : (Instr.commandFetch []).wf = false := by decide

/-- The table gives no row any bits. -/
theorem test_no_word : decodeTableWord 32 0x10 = none := rfl
theorem test_queue_unchanged : State.reset.withFetchWord 32 0x10 = State.reset := rfl

/-! ### The check codes (13 Table 13.6 and its check of the syndromes) -/

theorem test_code_5A : byteCode 0x5A = 0 := by decide
theorem test_decode_5B : byteDecode 0x5B 0 = (0x5A, .correctable) := by decide
theorem test_decode_59 : (byteDecode 0x59 0).2 = .poisoned := by decide
/-- Step 5: byte 3 of the word is poisoned, mask 0x08. -/
theorem test_word_poisoned : (decodeWord ⟨0x59000000, 0⟩).2 = (.poisoned, 0x08) := by decide +kernel
/-- Steps 8 and 9: enabling byte 3 clears the poison and keeps byte 0. -/
theorem test_poison_cleared :
    decodeWord (writeLanes (some (writeLanes (some ⟨0x59000000, 0⟩) 0x01 0x11)) 0x08 0x5A000000) = (0x5A000011, .correct, 0) := by
  decide +kernel

/-! ### Compare and ranking (02 Table 2.6 and the example of R40) -/

/-- Half-row 0 of the key: port 0x04D2, protocol 6. -/
def portKey : BitVec 40 := 0x04D2000006

theorem test_range_below : rangeMatch 0x07D0000006 0x0BB70000FF portKey = false := by decide
theorem test_range_within : rangeMatch 0x03E8000006 0x07CF0000FF portKey = true := by decide
/-- `lo` = 0xF000, `hi` = 0x0FFF match the last and the first sixteenth of the period. -/
theorem test_range_wraps : rangeMatch 0xF000000000 0x0FFF000000 0xFFFF000000 = true ∧
    rangeMatch 0xF000000000 0x0FFF000000 0x1000000000 = false := by decide
/-- Entries 5 and 17 share priority 0x0400: the lower number wins, ahead of entry 900 at 0x0100. -/
theorem test_best : better ⟨0x400, 5, 1, 0, 0, false⟩ ⟨0x400, 17, 1, 0, 0, false⟩ = true ∧
    better ⟨0x100, 900, 1, 0, 0, false⟩ ⟨0x400, 17, 1, 0, 0, false⟩ = false := by decide
/-- The result word of that example: three matches, winner entry 5 of partition 9 of channel 1 on device 2. -/
theorem test_result_word :
    resultWord 0 { hit := true, multi := true, prio := 0x400, dev := 2, chan := 1, partition := 9, count := 3, entry := 5 } =
      0xC004004920300005 := by decide

/-! ### Packets (15, one search on the wire) -/

theorem test_command_header : parsePkt 5 0x1020404003000014 [1, 2, 3] =
    (0x10, { ap := 5, ord := true, tag := 0x101, arg := 20, pay := [1, 2, 3] }) := by decide
theorem test_reply_header :
    replyWords { ap := 5, op := 0x10, status := 0, tag := 0x101, info := 7, pay := [0xC0030030803249F0], id := 0, ready := 0 } =
      [0x1000040401000007, 0xC0030030803249F0] := by decide

/-! ### Time (08, one phase, one window, one commit) -/

/-- CYG3 with a period of 2 ms and its anchor at 100 s. -/
def cyg3 : State := setReg (cygReg 3 0) 0x80000000 (setReg (cygReg 3 4) 2000000 (setReg (cygReg 3 0xC) 100 State.reset))

theorem test_phase : phaseAt cyg3 3 (tOf 1000 7500400 0) = 0xC00D1B71 := by decide +kernel
/-- The next wrap comes when T reaches 1,000 s + 8,000,000 ns. -/
theorem test_wrap : crossDue cyg3 3 0 (tOf 1000 7500400 0) = tOf 1000 8000000 0 := by decide +kernel

/-! ### The flow meter (09 Table 9.8) -/

/-- Meter profile 7 of the example. -/
def meter7 : State :=
  setReg (mprfReg 7 0) 6554 (setReg (mprfReg 7 4) 3277 (setReg (mprfReg 7 8) 0x05DC05DC (setReg (mprfReg 7 0xC) 0x80000004 State.reset)))
/-- A record that uses it, with the given buckets and time stamp. -/
def metered (tc te u : Nat) : List Word :=
  [0xA000000000000000 ||| 7 <<< 23, pack 64 [(tc, 63, 36), (te, 35, 8)], pack 64 [(u, 63, 40)], 0, 0, 0, 0, 0]

/-- Frame 2: yellow, and the excess bucket pays. -/
theorem test_meter_yellow :
    let x := meterStage meter7 996 140 (metered 2048000 6144000 100) {}
    (x.2.colour, fld (rw x.1 1) 63 36, fld (rw x.1 1) 35 8) = (1, 2310160, 2048000) := by decide +kernel
/-- Frame 3: red and dropped with METER_RED, the buckets refilled and otherwise unchanged. -/
theorem test_meter_red :
    let x := meterStage meter7 996 180 (metered 2310160 2048000 140) {}
    (x.2.colour, x.2.action, x.2.reason, fld (rw x.1 1) 63 36) = (2, acDrop, 5, 2572320) := by decide +kernel
/-- The verdict word of frame 3. -/
theorem test_verdict_word : verdictWord { action := 1, colour := 2, reason := 5 } 0x1234 (tOf 1000 256020480 0) = 0x650024680F429000 := by
  decide +kernel

/-! ### Exposure (11, a budget under pressure) -/

/-- `budget_mw` 30,000, `env_mw` 75,000, `other_mw` 18,000. -/
def budget : State :=
  setEff { setReg 0x20000 30000 (setReg 0x20004 75000 State.reset) with xpo := { State.reset.xpo with otherMw := 18000 } }

/-- R = 24,000 EU per CCLK. -/
theorem test_refill : refillEu { budget with part := { budget.part with grade := .g12 } } = 24000 := by decide +kernel

/-! ### Buffers (12 Table 12.9) -/

/-- A part in service. -/
def up : State := { State.reset with dev := { State.reset.dev with st := .run }, ch := Vector.replicate 4 { ready := true } }
/-- Buffer 40 heads a chain held as given. -/
def held40 (count : Nat) (holders : BitVec 16) : State :=
  { up with pool := { up.pool with tags := [(40, { count := count, holders := holders, len := 200, chained := true, next := 41, head := true }),
                                            (41, { count := count, holders := holders })] } }
/-- What a command leaves. -/
def ran {α : Type} (f : State → α) (i : Instr) (s : State) : Option α :=
  match exec i s with | .next t => some (f t) | _ => none
/-- Count and holders of buffer 40, and the last reply's status and `info`. -/
def seen (s : State) : Nat × BitVec 16 × Option (Byte × BitVec 24) :=
  ((bufTag s 40).count, (bufTag s 40).holders, s.replies.head?.map fun r => (r.status, r.info))

/-- Step 2: PG2 gives PG6 and PCIe one reference each. -/
theorem test_buf_share : ran seen (.bufShare { ap := 2, arg := 40, pay := [0x140] }) (held40 1 4) = some (3, 0x144, some (0, 3)) := by
  decide +kernel
/-- Step 3: PG5 holds nothing. -/
theorem test_buf_release_not_holder : ran seen (.bufRelease { ap := 5, arg := 40 }) (held40 3 0x144) = some (3, 0x144, some (stNotHolder, 0)) := by
  decide +kernel
/-- Step 4: PG6's release leaves two references. -/
theorem test_buf_release : ran seen (.bufRelease { ap := 6, arg := 40 }) (held40 3 0x144) = some (2, 0x144, some (0, 2)) := by
  decide +kernel
/-- Step 6: a release of the free buffer sets `already_free`. -/
theorem test_buf_double_release : ran seen (.bufRelease { ap := 2, arg := 40 }) up = some (0, 0, some (0, 0x200)) := by
  decide +kernel

/-! ### Single steps -/

/-- The command at the front of the queue runs and leaves it. -/
theorem test_step_queue : (match step { up with pending := [.nop (pkt 0 []), .wake] } with
    | .next t => t.pending == [.wake] && t.replies.length == 1 | _ => false) = true := by decide +kernel
/-- A NOP with a payload is refused with ST_BADLEN (15 R379). -/
theorem test_nop_badlen : ran (fun s => s.replies.map (·.status)) (.nop (pkt 0 [0])) up = some [stBadLen] := by decide +kernel
/-- ECHO returns its payload and its argument (15 R379). -/
theorem test_echo : ran (fun s => s.replies.map fun r => (r.pay, r.info)) (.echo (pkt 9 [3, 4])) up = some [([3, 4], 9)] := by
  decide +kernel

end Sys2Proof.Tests
end

