-- ==== Sys2Proof/Tests/Witness.lean ====
section
/-! SUPPORT. For every statement with hypotheses, a state and operands that meet all of them, clause by clause. -/

namespace Sys2Proof.Tests.Witness

/- One proof at a time: each waits for the kernel, and all at once would take a thread each. -/
set_option Elab.async false

open Sys2Proof Sys2Proof.Machine

/-- A part in service at CCLK 100, with nothing under way. -/
def base : State :=
  { State.reset with
    cclk := 100, nextId := 7, dev := { State.reset.dev with st := .run, developed := true },
    ch := Vector.replicate 4 { ready := true }, fw := { up := true }, tb := { wait := false, t := 5 * secU }, xpo := { refAt := 100 } }
/-- A packet of access point 0. -/
def pk : Pkt := { ap := 0, tag := 5 }
/-- Registers given values. -/
def regs (l : List (Nat × Reg)) (s : State) : State := l.foldl (fun s x => setReg x.1 x.2 s) s
/-- Channel 0 changed. -/
def ch0 (f : Chan → Chan) (s : State) : State := modChan 0 f s
/-- SRAM words stored with fresh codes. -/
def mem (l : List (Nat × Word)) (s : State) : State := { s with sram := l.foldl (fun m x => mset m x.1 (encode x.2)) s.sram }
/-- Partition 3 of channel 0, one block of single-row entries, fix time 10, and profile 2 that looks it up. -/
def table : State :=
  ch0 (fun k => { k with owner := [(0, 3, 0)] })
    (regs [(chAddr 0 0x30, 0x80100000), (chAddr 0 0x34, 0x50000), (profReg 2 0, 0x80000000), (profReg 2 0x10, 0x03000000)] base)
/-- A search of profile 2. -/
def srch2 (st : Stage) : Srch :=
  { cmd := { op := 0x10, p := { pk with arg := 2, pay := [1] } }, tChk := 0, prof := profOf table 2, ch := 0, cls := 0, stage := st }

/-- What `Calm` asks, as one test. -/
def calmB (s : State) : Bool :=
  s.dev.st == .run && !moreQ s && s.qm.soon.isEmpty && s.dev.late.isEmpty && s.dev.echoes.isEmpty && !unitsWait s && (lanesDue s.cclk s).isEmpty &&
    ([0, 1, 2, 3] : List Chn).all (fun c => (chan s c).upd.queue.isEmpty) && s.fw.queue.isEmpty && s.ring.wait.isEmpty &&
    framesDue s true == 0 && framesDue s false == 0 && s.qm.touched.isEmpty && s.vbad.isEmpty

theorem calm_of {s : State} (h : calmB s = true) : Calm s := by
  simp only [calmB, Bool.and_eq_true, beq_iff_eq, Bool.not_eq_true', List.isEmpty_iff, List.all_eq_true] at h
  obtain ⟨⟨⟨⟨⟨⟨⟨⟨⟨⟨⟨⟨⟨run, more⟩, soon⟩, late⟩, echo⟩, units⟩, lanes⟩, upd⟩, queue⟩, wait⟩, e⟩, w⟩, touched⟩, valid⟩ := h
  exact ⟨run, more, soon, late, echo, units, lanes, fun c => upd c (by revert c; decide), queue, wait, fun b => by cases b <;> assumption,
    touched, valid⟩

theorem serving_of {s : State} (h : (calmB s && !closing s) = true) : Serving s := by
  simp only [Bool.and_eq_true, Bool.not_eq_true'] at h
  exact ⟨calm_of h.1, h.2⟩

theorem ready_of {s : State}
    (h : (calmB s && !closing s && s.fw.up && s.fw.bootSrc != 2 && !s.fw.switchWait && !fwBusy s && s.fw.parked.isEmpty) = true) :
    FwReady s := by
  simp only [Bool.and_eq_true, Bool.not_eq_true', bne_iff_ne, List.isEmpty_iff] at h
  obtain ⟨⟨⟨⟨⟨⟨calm, stays⟩, up⟩, boot⟩, quiet⟩, free⟩, park⟩ := h
  exact ⟨⟨calm_of calm, stays⟩, up, boot, quiet, free, park⟩

theorem settled_of {s : State} (h : (s.searches.isEmpty && s.xpo.debits.isEmpty && s.xpo.refAt == s.cclk) = true) : Settled s := by
  simp only [Bool.and_eq_true, beq_iff_eq, List.isEmpty_iff] at h
  exact ⟨h.1.1, h.1.2, h.2⟩

theorem head_of {op : Byte} {p : Pkt} (h : p.rsv52 = false ∧ p.rsv37 = 0 ∧ p.cls ≠ 3) : GoodHead op p := ⟨h.1, h.2.1, fun _ => h.2.2⟩

theorem plain_of {p : Pkt} (h : p.pay = [] ∧ p.arg = 0) : Plain p := h

theorem roomy_of {op : Byte} {p : Pkt} {s : State}
    (h : heldBack { takenIn p s with fw := { (takenIn p s).fw with queue := [cmdOf op p s] } } (cmdOf op p s) = false) :
    Roomy op p s := h

theorem tight_of {op : Byte} {p : Pkt} {s : State}
    (h : heldBack { takenIn p s with fw := { (takenIn p s).fw with queue := [cmdOf op p s] } } (cmdOf op p s) = true) :
    ¬ Roomy op p s := fun k => Bool.noConfusion (h.symm.trans k)

theorem echoRoomy_of {p : Pkt} {s : State}
    (h : slotsShort { checkedIn p s with dev := { s.dev with echoes := [cmdOf 0x01 p s] } } (cmdOf 0x01 p s) = false) : EchoRoomy p s := h

theorem echoTight_of {p : Pkt} {s : State}
    (h : slotsShort { checkedIn p s with dev := { s.dev with echoes := [cmdOf 0x01 p s] } } (cmdOf 0x01 p s) = true) : ¬ EchoRoomy p s :=
  fun k => Bool.noConfusion (h.symm.trans k)

theorem queueRoomy_of {op : Byte} {p : Pkt} {s : State} (h : slotsShort (queueHeld op p s) (cmdOf op p s) = false) : QueueRoomy op p s := h

theorem queueTight_of {op : Byte} {p : Pkt} {s : State} (h : slotsShort (queueHeld op p s) (cmdOf op p s) = true) : ¬ QueueRoomy op p s :=
  fun k => Bool.noConfusion (h.symm.trans k)

theorem offered_of {c : Chn} {d : Nat} {q : Srch}
    (h : q.stage = .offer d ∧ q.ch = c ∧ q.mem = none ∧ q.org = none ∧ q.cmd.wq = none ∧ q.given = true ∧ q.cmd.op ≠ 0x12) :
    OfferedAt c d q :=
  ⟨h.1, h.2.1, h.2.2.1, h.2.2.2.1, h.2.2.2.2.1, h.2.2.2.2.2.1, h.2.2.2.2.2.2⟩

theorem save_allowed {b : Bool} {g : Image} {s : State}
    (h : ([true, false].all fun w => (List.range 16).all fun k => rgnAllows s 10 (pageOf (imageBase b) + k) w) = true) :
    saveDenied b g s = none := by
  have short : imageLen s.part.grade g ≤ 8192 := by simp [imageLen, imageBody]; omega
  have free (w : Bool) : firstDenied s 10 (imageBase b) (imageLen s.part.grade g) w = none := by
    simp only [List.all_eq_true, List.mem_range] at h
    simp only [firstDenied, List.find?_eq_none, List.mem_map, List.mem_range, Bool.not_eq_true', Bool.not_eq_false]
    rintro _ ⟨i, hi, rfl⟩
    have page : pageOf (imageBase b + i) = pageOf (imageBase b) + i / 512 := by
      cases b <;> simp [pageOf, imageBase, retainBase] <;> omega
    exact page ▸ h w (by cases w <;> decide) _ (by omega)
  simp [saveDenied, free]

theorem accepted_of {a : Nat} {v : Reg} {s : State}
    (h : (match regInfo s.part.grade a with
      | some i => decide (i.kind = .fields ∧ getReg s a &&& i.cs = v &&& i.cs ∧
          ownRule s 8 a (getReg s a) (stored i .window (getReg s a) v) v = none)
      | none => false) = true) : Accepted a v s := by
  unfold Accepted
  cases k : regInfo s.part.grade a with
  | none => simp [k] at h
  | some i => rw [k] at h; exact ⟨i, rfl, of_decide_eq_true h⟩

/-- Witnesses for `Obligations.NopEcho`. -/
theorem wit_NopEcho :
    (∃ (p : Pkt) (s : State), Serving s ∧ GoodHead 0x00 p) ∧
    (∃ (p : Pkt) (s : State), Serving s ∧ GoodHead 0x01 p ∧ EchoRoomy p s) ∧
    (∃ (p : Pkt) (s : State), Serving s ∧ GoodHead 0x01 p ∧ ¬ EchoRoomy p s) := by
  refine ⟨⟨{ pk with pay := [3] }, base, serving_of ?_, head_of ?_⟩,
   ⟨{ pk with arg := 9, pay := [3, 4] }, base, serving_of ?_, head_of ?_, echoRoomy_of ?_⟩,
   ⟨{ pk with arg := 9, pay := List.replicate 100 3 },
      { base with replies := List.replicate 80 { ap := 0, op := 0, status := 0, tag := 0, info := 0, pay := List.replicate 200 0, id := 1, ready := 0 } },
      serving_of ?_, head_of ?_, echoTight_of ?_⟩⟩ <;> decide +kernel

/-- Witnesses for `Obligations.SearchEnters`. -/
theorem wit_SearchEnters :
    (∃ (p : Pkt) (s : State) (op : Byte) (i : Instr) (pr : Prof) (l : Chn), (op = 0x10 ∧ i = .srch p ∨ op = 0x12 ∧ i = .srch2 p) ∧ Serving s
        ∧ GoodHead op p ∧ pr = profOf s (fld p.arg 6 0) ∧ l = profLead pr ∧ srchBad s (cmdOf op p s) = none ∧ shut s l = false ∧
        lockMode s l ≠ 3 ∧ leadOf s l = l ∧ inFlight s l < 4096 ∧ cascaded s (fld p.arg 6 0) = false ∧ isActive s l = true ∧ (pwrOf s
        l).waking = none) ∧
    (∃ (p : Pkt) (s : State) (pr : Prof) (l : Chn), Serving s ∧ GoodHead 0x11 p ∧ pr = profOf s (fld p.arg 6 0) ∧ l = profLead pr ∧ hsrchBad
        s (cmdOf 0x11 p s) = none ∧ fld p.arg 11 11 = 0 ∧ fld p.arg 12 12 = 0 ∧ shut s l = false ∧ lockMode s l ≠ 3 ∧ leadOf s l = l ∧
        inFlight s l < 4096 ∧ cascaded s (fld p.arg 6 0) = false ∧ isActive s l = true ∧ (pwrOf s l).waking = none) ∧
    (∃ (p : Pkt) (s : State) (op : Byte) (i : Instr) (st : Byte), (op = 0x10 ∧ i = .srch p ∨ op = 0x12 ∧ i = .srch2 p) ∧ Serving s ∧
        GoodHead op p ∧ srchBad s (cmdOf op p s) = some st) := by
  refine ⟨⟨{ pk with arg := 2, pay := [1] }, table, 0x10, .srch { pk with arg := 2, pay := [1] }, profOf table 2, 0, ?_, serving_of ?_, head_of
      ?_, ?_, ?_, ?_, ?_, ?_, ?_, ?_⟩,
   ⟨{ pk with arg := 2, pay := [8, 0x1122334455667788] }, regs [(profReg 2 0, 0x80200000), (0x51000, 0x80000000)] table, profOf (regs
      [(profReg 2 0, 0x80200000), (0x51000, 0x80000000)] table) 2, 0, serving_of ?_, head_of ?_, ?_, ?_, ?_, ?_, ?_, ?_, ?_, ?_, ?_⟩,
   ⟨{ pk with arg := 5, pay := [1] }, table, 0x10, .srch { pk with arg := 5, pay := [1] }, stBadArg, ?_, serving_of ?_, head_of ?_, ?_⟩⟩ <;> decide +kernel

/-- Witnesses for `Obligations.SearchStages`. -/
theorem wit_SearchStages :
    (∃ (s : State) (q : Srch) (c : Chn) (d : _) (cause : _) (key : _) (layer : _) (pos : _), Calm s ∧ s.searches = [q] ∧ q.ch = c ∧ q.mem =
        none ∧ q.org = none ∧ q.cmd.wq = none ∧ q.given = true ∧ lockMode s c = 0 ∧ leadOf s c = c ∧ groupOf s c = [c] ∧ isActive s c =
        true ∧ (pwrOf s c).waking = none ∧ shut s c = false ∧ s.dev.level ≠ 2 ∧ s.xpo.debits = [] ∧ (chan s c).pends = [] ∧ (chan s
        c).openFrom ≤ s.cclk ∧ q.stage = .snippet d ∧ s.cclk ≤ d ∧ q.fromBuf = none ∧ buildKey (tplAt d s) q.pcls q.desc q.bytes =
        (cause, key, layer, pos)) ∧
    (∃ (s : State) (q : Srch) (c : Chn) (d : _), Calm s ∧ s.searches = [q] ∧ q.ch = c ∧ q.mem = none ∧ q.org = none ∧ q.cmd.wq = none ∧
        q.given = true ∧ lockMode s c = 0 ∧ leadOf s c = c ∧ groupOf s c = [c] ∧ isActive s c = true ∧ (pwrOf s c).waking = none ∧ shut
        s c = false ∧ s.dev.level ≠ 2 ∧ s.xpo.debits = [] ∧ (chan s c).pends = [] ∧ (chan s c).openFrom ≤ s.cclk ∧ q.stage = .walk d ∧
        s.cclk ≤ d ∧ q.cause = 0) ∧
    (∃ (s : State) (q : Srch) (c : Chn) (d : _), Calm s ∧ s.searches = [q] ∧ q.ch = c ∧ q.mem = none ∧ q.org = none ∧ q.cmd.wq = none ∧
        q.given = true ∧ lockMode s c = 0 ∧ leadOf s c = c ∧ groupOf s c = [c] ∧ isActive s c = true ∧ (pwrOf s c).waking = none ∧ shut
        s c = false ∧ s.dev.level ≠ 2 ∧ s.xpo.debits = [] ∧ (chan s c).pends = [] ∧ (chan s c).openFrom ≤ s.cclk ∧ q.stage = .offer d ∧
        s.cclk ≤ d ∧ (chan s c).admNext ≤ d ∧ q.cls = 0 ∧ q.cmd.op ≠ 0x12 ∧ (chan s c).bubbleAt ≠ some d ∧ partGone s q = false) ∧
    (∃ (s : State) (q : Srch) (c : Chn) (adm : _) (acts : _) (rs : _), Calm s ∧ s.searches = [q] ∧ q.ch = c ∧ q.mem = none ∧ q.org = none ∧
        q.cmd.wq = none ∧ q.given = true ∧ lockMode s c = 0 ∧ leadOf s c = c ∧ groupOf s c = [c] ∧ isActive s c = true ∧ (pwrOf s
        c).waking = none ∧ shut s c = false ∧ s.dev.level ≠ 2 ∧ s.xpo.debits = [] ∧ (chan s c).pends = [] ∧ (chan s c).openFrom ≤ s.cclk
        ∧ q.stage = .pipe adm ∧ s.cclk ≤ adm + 45 ∧ q.acts = some acts ∧ q.cmp = some rs ∧ profSe q.prof.ctl = false ∧ q.ctxBad = false
        ∧ poisonReport rs = none ∧ (∀ r ∈ rs, r.part = false ∧ r.sec = none ∧ r.prioPois = false ∧ r.adPois.any id = false) ∧ q.cmd.op =
        0x10) ∧
    (∃ (s : State) (q : Srch) (c : Chn) (adm : _) (acts : _), Calm s ∧ s.searches = [q] ∧ q.ch = c ∧ q.mem = none ∧ q.org = none ∧ q.cmd.wq
        = none ∧ q.given = true ∧ lockMode s c = 0 ∧ leadOf s c = c ∧ groupOf s c = [c] ∧ isActive s c = true ∧ (pwrOf s c).waking =
        none ∧ shut s c = false ∧ s.dev.level ≠ 2 ∧ s.xpo.debits = [] ∧ (chan s c).pends = [] ∧ (chan s c).openFrom ≤ s.cclk ∧ q.stage =
        .pipe adm ∧ s.cclk ≤ adm + 45 ∧ q.cmp = none ∧ profSe q.prof.ctl = false ∧ q.ctxBad = false ∧ (q.acts = some acts ∨ q.acts =
        none ∧ acts = q.blks.map (·.1) ∧ ∀ j, cfgSlice (nth q.cfg j 0) = false)) ∧
    (∃ (s : State) (q : Srch) (c : Chn) (del : _) (rs : _) (v : _), Calm s ∧ s.searches = [q] ∧ q.ch = c ∧ q.mem = none ∧ q.org = none ∧
        q.cmd.wq = none ∧ q.given = true ∧ lockMode s c = 0 ∧ leadOf s c = c ∧ groupOf s c = [c] ∧ isActive s c = true ∧ (pwrOf s
        c).waking = none ∧ shut s c = false ∧ s.dev.level ≠ 2 ∧ s.xpo.debits = [] ∧ (chan s c).pends = [] ∧ (chan s c).openFrom ≤ s.cclk
        ∧ q.stage = .lane del ∧ s.cclk ≤ del + 16 ∧ q.verdict = some v ∧ q.cmp = some rs ∧ q.ctxBad = false ∧ poisonReport rs = none ∧
        (∀ r ∈ rs, r.part = false) ∧ q.cmd.op = 0x10) ∧
    (∃ (s : State) (q : Srch) (c : Chn) (since : _), Calm s ∧ s.searches = [q] ∧ q.ch = c ∧ q.mem = none ∧ q.org = none ∧ q.cmd.wq = none ∧
        q.given = true ∧ lockMode s c = 0 ∧ leadOf s c = c ∧ groupOf s c = [c] ∧ isActive s c = true ∧ (pwrOf s c).waking = none ∧ shut
        s c = false ∧ s.dev.level ≠ 2 ∧ s.xpo.debits = [] ∧ (chan s c).pends = [] ∧ (chan s c).openFrom ≤ s.cclk ∧ q.stage = .hold since
        ∧ (chan s c).admNext ≤ since + holdLimit s 1 ∧ s.cclk ≤ since + holdLimit s 1 ∧ q.cls = 1 ∧ s.xpo.bal < 0 ∧ s.xpo.effMw = 0 ∧
        s.xpo.deficit = false ∧ (s.xpo.refAt = since + holdLimit s 1 → s.xpo.was < 0)) := by
  refine ⟨⟨{ table with searches := [{ srch2 (.snippet 104) with bytes := [1,2,3,4,5,6,7,8], desc := 8 }] },
      { srch2 (.snippet 104) with bytes := [1,2,3,4,5,6,7,8], desc := 8 }, 0, 104, (buildKey table 0 8 [1,2,3,4,5,6,7,8]).1, (buildKey
      table 0 8 [1,2,3,4,5,6,7,8]).2.1, (buildKey table 0 8 [1,2,3,4,5,6,7,8]).2.2.1, (buildKey table 0 8 [1,2,3,4,5,6,7,8]).2.2.2,
      calm_of ?_, ?_, ?_, ?_, ?_, ?_, ?_, ?_, ?_, ?_, ?_, ?_, ?_, ?_, ?_, ?_, ?_, ?_⟩,
   ⟨{ table with searches := [srch2 (.walk 116)] }, srch2 (.walk 116), 0, 116, calm_of ?_, ?_, ?_, ?_, ?_, ?_, ?_, ?_, ?_, ?_, ?_, ?_, ?_,
      ?_, ?_, ?_, ?_⟩,
   ⟨{ table with searches := [srch2 (.offer 104)] }, srch2 (.offer 104), 0, 104, calm_of ?_, ?_, ?_, ?_, ?_, ?_, ?_, ?_, ?_, ?_, ?_, ?_,
      ?_, ?_, ?_, ?_, ?_, ?_, ?_, ?_, ?_⟩,
   ⟨{ table with searches := [{ srch2 (.pipe 104) with acts := some [0], cmp := some [{ hit := true, entry := 9, ad := [77], adPois := [false] }] }] },
      { srch2 (.pipe 104) with acts := some [0], cmp := some [{ hit := true, entry := 9, ad := [77], adPois := [false] }] }, 0, 104,
      [0], [{ hit := true, entry := 9, ad := [77], adPois := [false] }], calm_of ?_, ?_, ?_, ?_, ?_, ?_, ?_, ?_, ?_, ?_, ?_, ?_, ?_, ?_,
      ?_, ?_, ?_, ?_, ?_, ?_, ?_, ?_, ?_⟩,
   ⟨{ ch0 (fun k => { k with rows := [(40, freshRow 0 0 0b1100), (41, freshRow 0 0 0b1100)], prio := [(10, encode 0x1234567)] }) table with searches := [{ srch2 (.pipe 104) with cfg := [cfgOf table 0 3], blks := [(0, 0)], negs := [false], acts := some [0] }] },
      { srch2 (.pipe 104) with cfg := [cfgOf table 0 3], blks := [(0, 0)], negs := [false], acts := some [0] }, 0, 104, [0], calm_of ?_,
      ?_, ?_, ?_, ?_, ?_, ?_, ?_, ?_, ?_, ?_, ?_, ?_, ?_, ?_, ?_, ?_, ?_, ?_, ?_, ?_, ?_, .inl ?_⟩,
   ⟨{ table with searches := [{ srch2 (.lane 149) with verdict := some 5, cmp := some [{ hit := true, entry := 9 }] }] },
      { srch2 (.lane 149) with verdict := some 5, cmp := some [{ hit := true, entry := 9 }] }, 0, 149, [{ hit := true, entry := 9 }], 5,
      calm_of ?_, ?_, ?_, ?_, ?_, ?_, ?_, ?_, ?_, ?_, ?_, ?_, ?_, ?_, ?_, ?_, ?_, ?_, ?_, ?_, ?_, ?_⟩,
   ⟨{ table with searches := [{ srch2 (.hold 104) with cls := 1 }], xpo := { bal := -5, refAt := 100 } },
      { srch2 (.hold 104) with cls := 1 }, 0, 104, calm_of ?_, ?_, ?_, ?_, ?_, ?_, ?_, ?_, ?_, ?_, ?_, ?_, ?_, ?_, ?_, ?_, ?_, ?_, ?_,
      ?_, ?_, ?_⟩⟩ <;> decide +kernel

/-- Witnesses for `Obligations.AdmissionAndVerdict`. -/
theorem wit_AdmissionAndVerdict :
    (∃ (s : State) (c : Chn) (d : Nat) (q : Srch) (b : Int), Calm s ∧ lockMode s c = 0 ∧ leadOf s c = c ∧ groupOf s c = [c] ∧ isActive s c =
        true ∧ (pwrOf s c).waking = none ∧ s.xpo.debits = [] ∧ (chan s c).pends = [] ∧ (chan s c).openFrom ≤ s.cclk ∧ s.xpo.effMw = 0 ∧
        s.xpo.deficit = false ∧ s.xpo.bal ≤ burstEu s ∧ (chan s c).bubbleAt ≠ some d ∧ s.cclk ≤ d ∧ (chan s c).admNext ≤ d ∧ s.searches
        = [q] ∧ OfferedAt c d q ∧ shut s c = false ∧ s.dev.level ≠ 2 ∧ partGone s q = false ∧ (q.cls = 1 ∨ q.cls = 2) ∧ b = (if
        s.xpo.refAt = d then s.xpo.was else s.xpo.bal) ∧ 0 < holdLimit s q.cls) ∧
    (∃ (s : State) (c : Chn) (d : Nat) (x : Srch) (y : Srch) (z : Srch), Calm s ∧ lockMode s c = 0 ∧ leadOf s c = c ∧ groupOf s c = [c] ∧
        isActive s c = true ∧ (pwrOf s c).waking = none ∧ s.xpo.debits = [] ∧ (chan s c).pends = [] ∧ (chan s c).openFrom ≤ s.cclk ∧
        s.xpo.effMw = 0 ∧ s.xpo.deficit = false ∧ s.xpo.bal ≤ burstEu s ∧ (chan s c).bubbleAt ≠ some d ∧ s.cclk ≤ d ∧ (chan s c).admNext
        ≤ d ∧ s.searches = [x, y, z] ∧ (∀ q ∈ [x, y, z], OfferedAt c d q ∧ q.cls = 0 ∧ srchSrc q = srchSrc x) ∧ shut s c = false ∧
        s.dev.level ≠ 2 ∧ partGone s x = false ∧ x.cmd.id < y.cmd.id ∧ y.cmd.id < z.cmd.id ∧ satOf s (chAddr c 0x6038) = false) ∧
    (∃ (s : State) (c : Chn) (d : Nat) (y : Srch), Calm s ∧ lockMode s c = 0 ∧ leadOf s c = c ∧ groupOf s c = [c] ∧ isActive s c = true ∧
        (pwrOf s c).waking = none ∧ s.xpo.debits = [] ∧ (chan s c).pends = [] ∧ (chan s c).openFrom ≤ s.cclk ∧ s.xpo.effMw = 0 ∧
        s.xpo.deficit = false ∧ s.xpo.bal ≤ burstEu s ∧ (chan s c).bubbleAt ≠ some d ∧ s.cclk ≤ d ∧ (chan s c).admNext ≤ d ∧ s.searches
        = [y] ∧ y.stage = .gHeld ∧ OfferedAt c d { y with stage := .offer d } ∧ y.cls = 0 ∧ shut s c = false ∧ s.dev.level ≠ 2 ∧
        partGone s y = false ∧ d = max s.cclk (chan s c).admNext) ∧
    (∃ (s : State) (c : Chn) (d : Nat) (q : Srch), Calm s ∧ lockMode s c = 0 ∧ leadOf s c = c ∧ groupOf s c = [c] ∧ isActive s c = true ∧
        (pwrOf s c).waking = none ∧ s.xpo.debits = [] ∧ (chan s c).pends = [] ∧ (chan s c).openFrom ≤ s.cclk ∧ s.xpo.effMw = 0 ∧
        s.xpo.deficit = false ∧ s.xpo.bal ≤ burstEu s ∧ (chan s c).bubbleAt ≠ some d ∧ s.cclk ≤ d ∧ (chan s c).admNext ≤ d ∧ s.searches
        = [q] ∧ OfferedAt c d q ∧ shut s c = false ∧ s.dev.level = 2 ∧ satOf s (chAddr c 0x6048) = false ∧ (q.cls = 1 ∨ q.cls = 2 ∨
        q.cls = 0 ∧ (chan s c).win.no = d / 1024 ∧ regF s (chAddr c 0x600C) 10 0 ≤ (chan s c).win.gAdm)) ∧
    (∃ (s : State) (c : Chn) (d : Nat) (q : Srch), Calm s ∧ lockMode s c = 0 ∧ leadOf s c = c ∧ groupOf s c = [c] ∧ isActive s c = true ∧
        (pwrOf s c).waking = none ∧ s.xpo.debits = [] ∧ (chan s c).pends = [] ∧ (chan s c).openFrom ≤ s.cclk ∧ s.xpo.effMw = 0 ∧
        s.xpo.deficit = false ∧ s.xpo.bal ≤ burstEu s ∧ (chan s c).bubbleAt ≠ some d ∧ s.cclk ≤ d ∧ (chan s c).admNext ≤ d ∧ s.searches
        = [q] ∧ OfferedAt c d q ∧ shut s c = true) ∧
    (∃ (p : Pkt) (s : State) (c : Chn) (q : Srch) (since : Nat), FwReady s ∧ GoodHead 0x58 p ∧ p.pay = [] ∧ p.arg = BitVec.ofNat 24 (c.val *
        2 ^ 6) ∧ lockMode s c = 0 ∧ leadOf s c = c ∧ groupOf s c = [c] ∧ (chan s c).quiesced = false ∧ s.searches = [q] ∧ q.stage =
        .hold since ∧ OfferedAt c since { q with stage := .offer since }) ∧
    (∃ (s : State) (q : Srch) (c : Chn) (rs : List LkRes) (adm : _) (acts : _), Calm s ∧ s.searches = [q] ∧ q.ch = c ∧ q.mem = none ∧ q.org
        = none ∧ q.cmd.wq = none ∧ q.given = true ∧ lockMode s c = 0 ∧ leadOf s c = c ∧ q.cmp = some rs ∧ q.ctxBad = false ∧
        poisonReport rs = none ∧ (∀ r ∈ rs, r.part = false ∧ r.sec = none ∧ r.prioPois = false ∧ r.adPois.any id = false) ∧ profSe
        q.prof.ctl = true ∧ q.cmd.op = 0x10 ∧ q.stage = .pipe adm ∧ s.cclk ≤ adm + 45 ∧ q.acts = some acts ∧ (nth rs (profSeLk
        q.prof.ctl) {}).hit = false) ∧
    (∃ (s : State) (q : Srch) (c : Chn) (rs : List LkRes) (del : Nat) (h : Nat) (ws : List Word), Calm s ∧ s.searches = [q] ∧ q.ch = c ∧
        q.mem = none ∧ q.org = none ∧ q.cmd.wq = none ∧ q.given = true ∧ lockMode s c = 0 ∧ leadOf s c = c ∧ q.cmp = some rs ∧ q.ctxBad
        = false ∧ poisonReport rs = none ∧ (∀ r ∈ rs, r.part = false ∧ r.sec = none ∧ r.prioPois = false ∧ r.adPois.any id = false) ∧
        profSe q.prof.ctl = true ∧ q.cmd.op = 0x10 ∧ q.stage = .lane del ∧ s.cclk ≤ del ∧ q.verdict = none ∧ q.handle = some h ∧ h < 2 ^
        18 ∧ ws.length = 8 ∧ (∀ k (b : k < ws.length), rawWord s (recWord h k) = some (encode ws[k])) ∧ bitAt (rw ws 0) 63 = true ∧ (∀ i
        ∈ [62, 61, 60, 59, 58, 57, 53, 52, 51, 0], bitAt (rw ws 0) i = false) ∧ fld (rw ws 6) 63 32 < 2 ^ 30 ∧ fld (rw ws 6) 31 0 < 2 ^
        30) := by
  refine ⟨⟨{ regs [(0x20010, 0x01F403E8), (0x2000C, 500)] table with xpo := { bal := 0, refAt := 100, was := 0 }, searches := [{ srch2 (.offer 104) with cls := 1, cmd := { op := 0x10, id := 7, p := { pk with arg := 2, pay := [1], ap := 0 } } }] },
      0, 104, { srch2 (.offer 104) with cls := 1, cmd := { op := 0x10, id := 7, p := { pk with arg := 2, pay := [1], ap := 0 } } }, 0,
      calm_of ?_, ?_, ?_, ?_, ?_, ?_, ?_, ?_, ?_, ?_, ?_, ?_, ?_, ?_, ?_, ?_, offered_of ?_, ?_, ?_, ?_⟩,
   ⟨{ table with searches := [{ srch2 (.offer 104) with cls := 0, cmd := { op := 0x10, id := 7, p := { pk with arg := 2, pay := [1], ap := 0 } } }, { srch2 (.offer 104) with cls := 0, cmd := { op := 0x10, id := 8, p := { pk with arg := 2, pay := [1], ap := 0 } } }, { srch2 (.offer 104) with cls := 0, cmd := { op := 0x10, id := 9, p := { pk with arg := 2, pay := [1], ap := 0 } } }] },
      0, 104, { srch2 (.offer 104) with cls := 0, cmd := { op := 0x10, id := 7, p := { pk with arg := 2, pay := [1], ap := 0 } } },
      { srch2 (.offer 104) with cls := 0, cmd := { op := 0x10, id := 8, p := { pk with arg := 2, pay := [1], ap := 0 } } },
      { srch2 (.offer 104) with cls := 0, cmd := { op := 0x10, id := 9, p := { pk with arg := 2, pay := [1], ap := 0 } } }, calm_of ?_,
      ?_, ?_, ?_, ?_, ?_, ?_, ?_, ?_, ?_, ?_, ?_, ?_, ?_, ?_, ?_,
      fun q h => by simp only [List.mem_cons, List.not_mem_nil, or_false] at h; obtain rfl | rfl | rfl := h <;> exact ⟨offered_of (by decide +kernel), by decide +kernel, by decide +kernel⟩,
      ?_, ?_, ?_⟩,
   ⟨{ table with xpo := { bal := 0, refAt := 100, was := 0 }, searches := [{ srch2 (.gHeld) with cls := 0, cmd := { op := 0x10, id := 8, p := { pk with arg := 2, pay := [1], ap := 0 } } }] },
      0, 100, { srch2 (.gHeld) with cls := 0, cmd := { op := 0x10, id := 8, p := { pk with arg := 2, pay := [1], ap := 0 } } }, calm_of
      ?_, ?_, ?_, ?_, ?_, ?_, ?_, ?_, ?_, ?_, ?_, ?_, ?_, ?_, ?_, ?_, ?_, offered_of ?_, ?_, ?_⟩,
   ⟨{ table with xpo := { bal := 0, refAt := 100, was := 0 }, searches := [{ srch2 (.offer 104) with cls := 1, cmd := { op := 0x10, id := 7, p := { pk with arg := 2, pay := [1], ap := 0 } } }], dev := { table.dev with level := 2 } },
      0, 104, { srch2 (.offer 104) with cls := 1, cmd := { op := 0x10, id := 7, p := { pk with arg := 2, pay := [1], ap := 0 } } },
      calm_of ?_, ?_, ?_, ?_, ?_, ?_, ?_, ?_, ?_, ?_, ?_, ?_, ?_, ?_, ?_, ?_, offered_of ?_, ?_⟩,
   ⟨{ ch0 (fun k => { k with quiesced := true }) table with xpo := { bal := 0, refAt := 100, was := 0 }, searches := [{ srch2 (.offer 104) with cls := 0, cmd := { op := 0x10, id := 7, p := { pk with arg := 2, pay := [1], ap := 0 } } }] },
      0, 104, { srch2 (.offer 104) with cls := 0, cmd := { op := 0x10, id := 7, p := { pk with arg := 2, pay := [1], ap := 0 } } },
      calm_of ?_, ?_, ?_, ?_, ?_, ?_, ?_, ?_, ?_, ?_, ?_, ?_, ?_, ?_, ?_, ?_, offered_of ?_, ?_⟩,
   ⟨pk,
      { table with xpo := { bal := -5, refAt := 100, was := -5 }, searches := [{ srch2 (.hold 90) with cls := 1, cmd := { op := 0x10, id := 7, p := { pk with arg := 2, pay := [1], ap := 0 } } }] },
      0, { srch2 (.hold 90) with cls := 1, cmd := { op := 0x10, id := 7, p := { pk with arg := 2, pay := [1], ap := 0 } } }, 90,
      ready_of ?_, head_of ?_, ?_, ?_, ?_, ?_, ?_, ?_, ?_, ?_, offered_of ?_⟩,
   ⟨{ table with searches := [{ srch2 (.pipe 104) with prof := { profOf table 2 with ctl := 0x80100000 }, acts := some [0], cmp := some [{ ad := [5], adPois := [false] }] }] },
      { srch2 (.pipe 104) with prof := { profOf table 2 with ctl := 0x80100000 }, acts := some [0], cmp := some [{ ad := [5], adPois := [false] }] },
      0, [{ ad := [5], adPois := [false] }], 104, [0], calm_of ?_, ?_, ?_, ?_, ?_, ?_, ?_, ?_, ?_, ?_, ?_, ?_, ?_, ?_, ?_, ?_⟩,
   ⟨mem ((List.range 8).map fun i => (recWord 5 i, nth ([0x8000000000000000 ||| (0 : Word), 0, 0, 0, 0, 0, 0, 0]) i 0))
      { table with searches := [{ srch2 (.lane 149) with prof := { profOf table 2 with ctl := 0x80100000 }, handle := some 5, cmp := some [{ hit := true, entry := 9, ad := [5], adPois := [false] }], key := 0 }] },
      { srch2 (.lane 149) with prof := { profOf table 2 with ctl := 0x80100000 }, handle := some 5, cmp := some [{ hit := true, entry := 9, ad := [5], adPois := [false] }], key := 0 },
      0, [{ hit := true, entry := 9, ad := [5], adPois := [false] }], 149, 5, [0x8000000000000000 ||| (0 : Word), 0, 0, 0, 0, 0, 0, 0],
      calm_of ?_, ?_, ?_, ?_, ?_, ?_, ?_, ?_, ?_, ?_, ?_, ?_, ?_, ?_, ?_, ?_, ?_, ?_, ?_, ?_, ?_, ?_, ?_⟩⟩ <;> decide +kernel

/-- Witnesses for `Obligations.UpdateQueued`. -/
theorem wit_UpdateQueued :
    (∃ (p : Pkt) (s : State) (op : Byte) (i : Instr) (l : Chn), (op = 0x20 ∧ i = .entWr p ∨ op = 0x21 ∧ i = .entRd p ∨ op = 0x22 ∧ i =
        .entIns p ∨ op = 0x23 ∧ i = .entDel p ∨ op = 0x24 ∧ i = .prioWr p ∨ op = 0x25 ∧ i = .adWr p ∨ op = 0x26 ∧ i = .adRd p ∨ op =
        0x28 ∧ i = .negOpen p ∨ op = 0x29 ∧ (i = .negCommit p ∨ i = .negCommitAtPhase p) ∨ op = 0x2A ∧ i = .negAbort p) ∧ Serving s ∧
        GoodHead op p ∧ l = leadOf s (cmdCh (cmdOf op p s))) := by
  refine ⟨{ pk with arg := 3, pay := [] }, table, 0x28, .negOpen { pk with arg := 3, pay := [] }, 0, ?_, serving_of ?_, head_of ?_, ?_⟩ <;> decide +kernel

/-- Witnesses for `Obligations.EntryWritten`. -/
theorem wit_EntryWritten :
    (∃ (c : Chn) (l : Chn) (s : State) (cmd : Cmd) (p : Nat) (e : Nat) (pos : Nat) (d : BitVec 640) (m : BitVec 640) (prio : BitVec 16) (ad
        : List Word) (a : Bool) (b : Bool) (w : Word) (st : WStep) (i : Instr) (late : Nat), Calm s ∧ Settled s ∧ l = leadOf s c ∧
        groupOf s l = [l] ∧ w = cfgOf s l p ∧ cfgSlice w = false ∧ posOf s l p (e / perBlock w) = some pos ∧ (chan s l).proof = none ∧
        (chan s l).corr = [] ∧ ad.length = cfgG w ∧ st = .create p e d m (encode (prio.setWidth 64)) (ad.map encode) a b ∧ rowOf w e +
        cfgG w ≤ 8192 ∧ (chan s l).upd.job = some { cmd := cmd, steps := [st], entry := e } ∧ (chan s l).upd.nextAt ≤ s.cclk ∧ isActive
        s l = true ∧ cmd.wq = none ∧ cmd.op ≠ 0x4D ∧ e < 2 ^ 20 ∧ (i = .writeStep c ∧ late = 0 ∧ stepFree s l st s.cclk = true ∨ i =
        .writeBubble c ∧ late = 6 ∧ (chan s l).upd.nextAt + regF s (chAddr l 0x5100) 5 0 ≤ s.cclk ∧ bubbleSlot s l = true ∧ hadFree l
        (max (chan s l).upd.nextAt (s.cclk - 72)) s = false)) ∧
    (∃ (c : Chn) (l : Chn) (s : State) (cmd : Cmd) (p : Nat) (e : Nat) (pos : Nat) (d : BitVec 640) (m : BitVec 640) (prio : BitVec 16) (ad
        : List Word) (a : Bool) (b : Bool) (w : Word) (st : WStep) (i : Instr) (late : Nat), Calm s ∧ Settled s ∧ l = leadOf s c ∧
        groupOf s l = [l] ∧ w = cfgOf s l p ∧ cfgSlice w = false ∧ posOf s l p (e / perBlock w) = some pos ∧ (chan s l).proof = none ∧
        (chan s l).corr = [] ∧ ad.length = cfgG w ∧ st = .create p e d m (encode (prio.setWidth 64)) (ad.map encode) a b ∧ rowOf w e +
        cfgG w ≤ 8192 ∧ (chan s l).upd.job = some { cmd := cmd, steps := [st], entry := e } ∧ (chan s l).upd.nextAt ≤ s.cclk ∧ isActive
        s l = true ∧ cmd.wq = none ∧ cmd.op ≠ 0x4D ∧ e < 2 ^ 20 ∧ (i = .writeStep c ∧ late = 0 ∧ stepFree s l st s.cclk = true ∨ i =
        .writeBubble c ∧ late = 6 ∧ (chan s l).upd.nextAt + regF s (chAddr l 0x5100) 5 0 ≤ s.cclk ∧ bubbleSlot s l = true ∧ hadFree l
        (max (chan s l).upd.nextAt (s.cclk - 72)) s = false)) := by
  refine ⟨⟨0, 0, ch0 (fun k =>
      { k with upd := { job := some { cmd := { op := 0x22, p := pk }, steps := [.create 3 40 0x123 0xfff (encode 7) [encode 55] true false], entry := 40 }, nextAt := 80 } })
      table, { op := 0x22, p := pk }, 3, 40, 0, 0x123, 0xfff, 7, [55], true, false, cfgOf table 0 3, .create 3 40 0x123 0xfff (encode 7)
      [encode 55] true false, .writeStep 0, 0, calm_of ?_, settled_of ?_, ?_, ?_, ?_, ?_, ?_, ?_, ?_, ?_, ?_, ?_, ?_, ?_, ?_, ?_⟩,
   ⟨0, 0, ch0 (fun k =>
      { k with upd := { job := some { cmd := { op := 0x22, p := pk }, steps := [.create 3 40 0x123 0xfff (encode 7) [encode 55] true false], entry := 40 }, nextAt := 92 }, cmps := (List.range 9).map fun i => (92 + i, 0) })
      (regs [(chAddr 0 0x5100, 0x00000008)] table), { op := 0x22, p := pk }, 3, 40, 0, 0x123, 0xfff, 7, [55], true, false, cfgOf table 0
      3, .create 3 40 0x123 0xfff (encode 7) [encode 55] true false, .writeBubble 0, 6, calm_of ?_, settled_of ?_, ?_, ?_, ?_, ?_, ?_,
      ?_, ?_, ?_, ?_, ?_, ?_, ?_, ?_, ?_⟩⟩ <;> decide +kernel

/-- Witnesses for `Obligations.UpdatesApplied`. -/
theorem wit_UpdatesApplied :
    (∃ (c : Chn) (l : Chn) (s : State) (cmd : Cmd) (p : Nat) (e : Nat) (pos : Nat) (w : Word) (st : WStep) (prio : BitVec 16), Calm s ∧
        Settled s ∧ l = leadOf s c ∧ groupOf s l = [l] ∧ w = cfgOf s l p ∧ cfgSlice w = false ∧ posOf s l p (e / perBlock w) = some pos
        ∧ (chan s l).proof = none ∧ (chan s l).corr = [] ∧ (chan s l).upd.job = some { cmd := cmd, steps := [st], entry := e } ∧ (chan s
        l).upd.nextAt ≤ s.cclk ∧ stepFree s l st s.cclk = true ∧ isActive s l = true ∧ cmd.wq = none ∧ cmd.op ≠ 0x4D ∧ e < 2 ^ 20 ∧ st =
        .setPrio p e prio ∧ (chan s l).prioBad = []) ∧
    (∃ (c : Chn) (l : Chn) (s : State) (cmd : Cmd) (p : Nat) (e : Nat) (pos : Nat) (w : Word) (st : WStep) (first : Nat) (ad : List Word),
        Calm s ∧ Settled s ∧ l = leadOf s c ∧ groupOf s l = [l] ∧ w = cfgOf s l p ∧ cfgSlice w = false ∧ posOf s l p (e / perBlock w) =
        some pos ∧ (chan s l).proof = none ∧ (chan s l).corr = [] ∧ (chan s l).upd.job = some { cmd := cmd, steps := [st], entry := e }
        ∧ (chan s l).upd.nextAt ≤ s.cclk ∧ stepFree s l st s.cclk = true ∧ isActive s l = true ∧ cmd.wq = none ∧ cmd.op ≠ 0x4D ∧ e < 2 ^
        20 ∧ st = .setAd p e first ad ∧ first + ad.length ≤ cfgG w) ∧
    (∃ (c : Chn) (l : Chn) (s : State) (cmd : Cmd) (p : Nat) (e : Nat) (pos : Nat) (w : Word) (st : WStep), Calm s ∧ Settled s ∧ l = leadOf
        s c ∧ groupOf s l = [l] ∧ w = cfgOf s l p ∧ cfgSlice w = false ∧ posOf s l p (e / perBlock w) = some pos ∧ (chan s l).proof =
        none ∧ (chan s l).corr = [] ∧ (chan s l).upd.job = some { cmd := cmd, steps := [st], entry := e } ∧ (chan s l).upd.nextAt ≤
        s.cclk ∧ stepFree s l st s.cclk = true ∧ isActive s l = true ∧ cmd.wq = none ∧ cmd.op ≠ 0x4D ∧ e < 2 ^ 20 ∧ (st = .kill p e ∨ (∃
        a b, st = .member p e a b))) ∧
    (∃ (c : Chn) (l : Chn) (s : State) (cmd : Cmd) (p : Nat) (e : Nat) (pos : Nat) (w : Word) (st : WStep) (d : BitVec 640) (m : BitVec 640)
        (a : Bool) (b : Bool) (prio : BitVec 16), Calm s ∧ Settled s ∧ l = leadOf s c ∧ groupOf s l = [l] ∧ w = cfgOf s l p ∧ cfgSlice w
        = false ∧ posOf s l p (e / perBlock w) = some pos ∧ (chan s l).proof = none ∧ (chan s l).corr = [] ∧ (chan s l).upd.job = some
        { cmd := cmd, steps := [st], entry := e } ∧ (chan s l).upd.nextAt ≤ s.cclk ∧ stepFree s l st s.cclk = true ∧ isActive s l = true
        ∧ cmd.wq = none ∧ cmd.op ≠ 0x4D ∧ e < 2 ^ 20 ∧ st = .readEnt p e ∧ d.toNat < 2 ^ cfgW w ∧ m.toNat < 2 ^ cfgW w ∧ entryRows s l w
        p e = (List.range (cfgG w)).map (fun k => freshRow (seg d k) (seg m k) (ctlOf true a b (k == 0))) ∧ readHalf (prioWord (chan s
        l) (adIdx pos (rowOf w e))) (adIdx pos (rowOf w e)) = (prio, .correct, 0)) ∧
    (∃ (c : Chn) (l : Chn) (s : State) (cmd : Cmd) (p : Nat) (e : Nat) (pos : Nat) (w : Word) (st : WStep) (ws : List Word), Calm s ∧
        Settled s ∧ l = leadOf s c ∧ groupOf s l = [l] ∧ w = cfgOf s l p ∧ cfgSlice w = false ∧ posOf s l p (e / perBlock w) = some pos
        ∧ (chan s l).proof = none ∧ (chan s l).corr = [] ∧ (chan s l).upd.job = some { cmd := cmd, steps := [st], entry := e } ∧ (chan s
        l).upd.nextAt ≤ s.cclk ∧ stepFree s l st s.cclk = true ∧ isActive s l = true ∧ cmd.wq = none ∧ cmd.op ≠ 0x4D ∧ e < 2 ^ 20 ∧ st =
        .readAd p e ∧ ws.length = cfgG w ∧ entValid s l w p e = true ∧ (chan s l).adWas = [] ∧ (∀ k (h : k < ws.length), adWord (chan s
        l) (adIdx pos (rowOf w e) + k) = some (encode ws[k]))) ∧
    (∃ (l : Chn) (u : State) (s : State) (cmd : Cmd) (n : Nat) (p : Nat) (w : Word), Calm u ∧ u.searches = [] ∧ u.pending = [] ∧
        u.ring.east.st ≠ .up ∧ u.ring.west.st ≠ .up ∧ leadOf u l = l ∧ s = modUpd l (fun v => { v with queue := [cmd] }) u ∧ cmd.wq =
        none ∧ cmdCh cmd = l ∧ p = cmdPart cmd ∧ w = cfgOf u l p ∧ n = max (chan u l).upd.takeAt (cmd.chk + 1) ∧ n ≤ u.cclk + 1 ∧ (chan
        u l).upd.job = none ∧ washing u l = false ∧ inCopy u l = false ∧ (chan u l).resetting = none ∧ cmd.op = 0x22 ∧ updBad u cmd =
        none ∧ groupOf u l = [l] ∧ cfgSlice w = false ∧ (∀ b < cfgBlocks w, (posOf u l p b).isSome = true)) ∧
    (∃ (l : Chn) (u : State) (s : State) (cmd : Cmd) (n : Nat) (p : Nat) (w : Word), Calm u ∧ u.searches = [] ∧ u.pending = [] ∧
        u.ring.east.st ≠ .up ∧ u.ring.west.st ≠ .up ∧ leadOf u l = l ∧ s = modUpd l (fun v => { v with queue := [cmd] }) u ∧ cmd.wq =
        none ∧ cmdCh cmd = l ∧ p = cmdPart cmd ∧ w = cfgOf u l p ∧ n = max (chan u l).upd.takeAt (cmd.chk + 1) ∧ n ≤ u.cclk + 1 ∧ (chan
        u l).upd.job = none ∧ washing u l = false ∧ inCopy u l = false ∧ (chan u l).resetting = none ∧ cmd.op = 0x28 ∧ negBad u n cmd =
        none) ∧
    (∃ (l : Chn) (u : State) (s : State) (cmd : Cmd) (n : Nat) (p : Nat) (w : Word), Calm u ∧ u.searches = [] ∧ u.pending = [] ∧
        u.ring.east.st ≠ .up ∧ u.ring.west.st ≠ .up ∧ leadOf u l = l ∧ s = modUpd l (fun v => { v with queue := [cmd] }) u ∧ cmd.wq =
        none ∧ cmdCh cmd = l ∧ p = cmdPart cmd ∧ w = cfgOf u l p ∧ n = max (chan u l).upd.takeAt (cmd.chk + 1) ∧ n ≤ u.cclk + 1 ∧ (chan
        u l).upd.job = none ∧ washing u l = false ∧ inCopy u l = false ∧ (chan u l).resetting = none ∧ cmd.op = 0x29 ∧ fld cmd.p.arg 8 8
        = 0 ∧ negBad u n cmd = none) ∧
    (∃ (l : Chn) (u : State) (s : State) (cmd : Cmd) (n : Nat) (p : Nat) (w : Word), Calm u ∧ u.searches = [] ∧ u.pending = [] ∧
        u.ring.east.st ≠ .up ∧ u.ring.west.st ≠ .up ∧ leadOf u l = l ∧ s = modUpd l (fun v => { v with queue := [cmd] }) u ∧ cmd.wq =
        none ∧ cmdCh cmd = l ∧ p = cmdPart cmd ∧ w = cfgOf u l p ∧ n = max (chan u l).upd.takeAt (cmd.chk + 1) ∧ n ≤ u.cclk + 1 ∧ (chan
        u l).upd.job = none ∧ washing u l = false ∧ inCopy u l = false ∧ (chan u l).resetting = none ∧ cmd.op = 0x2A ∧ negBad u n cmd =
        none) := by
  refine ⟨⟨0, 0, ch0 (fun k =>
      { k with rows := [(40, freshRow 0x123 0xfff 0b1101), (41, freshRow 5 0xff 0b1010)], adm := [(41, encode 9)], upd := { job := some { cmd := { op := 0x22, p := pk }, steps := [.setPrio 3 40 77], entry := 40 }, nextAt := 80 } })
      table, { op := 0x22, p := pk }, 3, 40, 0, cfgOf table 0 3, .setPrio 3 40 77, 77, calm_of ?_, settled_of ?_, ?_, ?_, ?_, ?_, ?_,
      ?_, ?_, ?_, ?_, ?_, ?_, ?_, ?_⟩,
   ⟨0, 0, ch0 (fun k =>
      { k with rows := [(40, freshRow 0x123 0xfff 0b1101), (41, freshRow 5 0xff 0b1010)], adm := [(41, encode 9)], upd := { job := some { cmd := { op := 0x22, p := pk }, steps := [.setAd 3 40 0 [88]], entry := 40 }, nextAt := 80 } })
      table, { op := 0x22, p := pk }, 3, 40, 0, cfgOf table 0 3, .setAd 3 40 0 [88], 0, [88], calm_of ?_, settled_of ?_, ?_, ?_, ?_, ?_,
      ?_, ?_, ?_, ?_, ?_, ?_, ?_, ?_, ?_⟩,
   ⟨0, 0, ch0 (fun k =>
      { k with rows := [(40, freshRow 0x123 0xfff 0b1101), (41, freshRow 5 0xff 0b1010)], adm := [(41, encode 9)], upd := { job := some { cmd := { op := 0x22, p := pk }, steps := [.kill 3 40], entry := 40 }, nextAt := 80 } })
      table, { op := 0x22, p := pk }, 3, 40, 0, cfgOf table 0 3, .kill 3 40, calm_of ?_, settled_of ?_, ?_, ?_, ?_, ?_, ?_, ?_, ?_, ?_,
      ?_, ?_, ?_, ?_, ?_, ?_, .inl ?_⟩,
   ⟨0, 0, ch0 (fun k =>
      { k with rows := [(40, freshRow 0x123 0xfff 0b1101), (41, freshRow 5 0xff 0b1010)], adm := [(41, encode 9)], upd := { job := some { cmd := { op := 0x22, p := pk }, steps := [.readEnt 3 40], entry := 40 }, nextAt := 80 } })
      table, { op := 0x22, p := pk }, 3, 40, 0, cfgOf table 0 3, .readEnt 3 40, 0x123, 0xfff, true, false, 0, calm_of ?_, settled_of ?_,
      ?_, ?_, ?_, ?_, ?_, ?_, ?_, ?_, ?_, ?_, ?_, ?_, ?_, ?_, ?_, ?_⟩,
   ⟨0, 0, ch0 (fun k =>
      { k with rows := [(40, freshRow 0x123 0xfff 0b1101), (41, freshRow 5 0xff 0b1010)], adm := [(40, encode 6), (41, encode 9)], upd := { job := some { cmd := { op := 0x22, p := pk }, steps := [.readAd 3 40], entry := 40 }, nextAt := 80 } })
      table, { op := 0x22, p := pk }, 3, 40, 0, cfgOf table 0 3, .readAd 3 40, [6], calm_of ?_, settled_of ?_, ?_, ?_, ?_, ?_, ?_, ?_,
      ?_, ?_, ?_, ?_, ?_, ?_, ?_, ?_, ?_, ?_⟩,
   ⟨0, ch0 (fun k => { k with rows := [] }) (regs [(chAddr 0 0x30, 0xC0100000)] table), modUpd 0 (fun v =>
      { v with queue := [{ op := 0x22, p := { pk with arg := 3, pay := [0x700000, 5, 0, 0xff, 0] }, chk := 99 }] }) (ch0 (fun k =>
      { k with rows := [] }) (regs [(chAddr 0 0x30, 0xC0100000)] table)),
      { op := 0x22, p := { pk with arg := 3, pay := [0x700000, 5, 0, 0xff, 0] }, chk := 99 }, 100, cmdPart
      ({ op := 0x22, p := { pk with arg := 3, pay := [0x700000, 5, 0, 0xff, 0] }, chk := 99 }), cfgOf (regs [(chAddr 0 0x30,
      0xC0100000)] table) 0 (cmdPart ({ op := 0x22, p := { pk with arg := 3, pay := [0x700000, 5, 0, 0xff, 0] }, chk := 99 })), calm_of
      ?_, ?_, ?_, ?_, ?_, ?_, ?_, ?_, ?_, ?_, ?_, ?_, ?_, ?_, ?_, ?_, ?_, ?_, ?_⟩,
   ⟨0, ch0 (fun k => { k with rows := [] }) table, modUpd 0 (fun v =>
      { v with queue := [{ op := 0x28, p := { pk with arg := 3, pay := [] }, chk := 99 }] }) (ch0 (fun k => { k with rows := [] })
      table), { op := 0x28, p := { pk with arg := 3, pay := [] }, chk := 99 }, 100, cmdPart
      ({ op := 0x28, p := { pk with arg := 3, pay := [] }, chk := 99 }), cfgOf table 0 (cmdPart
      ({ op := 0x28, p := { pk with arg := 3, pay := [] }, chk := 99 })), calm_of ?_, ?_, ?_, ?_, ?_, ?_, ?_, ?_, ?_, ?_, ?_, ?_, ?_,
      ?_, ?_, ?_⟩,
   ⟨0, ch0 (fun k => { k with rows := [], parts := [(3, { st := .opened })] }) table, modUpd 0 (fun v =>
      { v with queue := [{ op := 0x29, p := { pk with arg := 0, pay := [8] }, chk := 99 }] }) (ch0 (fun k =>
      { k with rows := [], parts := [(3, { st := .opened })] }) table),
      { op := 0x29, p := { pk with arg := 0, pay := [8] }, chk := 99 }, 100, cmdPart
      ({ op := 0x29, p := { pk with arg := 0, pay := [8] }, chk := 99 }), cfgOf table 0 (cmdPart
      ({ op := 0x29, p := { pk with arg := 0, pay := [8] }, chk := 99 })), calm_of ?_, ?_, ?_, ?_, ?_, ?_, ?_, ?_, ?_, ?_, ?_, ?_, ?_,
      ?_, ?_, ?_, ?_⟩,
   ⟨0, ch0 (fun k => { k with rows := [], parts := [(3, { st := .opened })] }) table, modUpd 0 (fun v =>
      { v with queue := [{ op := 0x2A, p := { pk with arg := 3, pay := [] }, chk := 99 }] }) (ch0 (fun k =>
      { k with rows := [], parts := [(3, { st := .opened })] }) table), { op := 0x2A, p := { pk with arg := 3, pay := [] }, chk := 99 },
      100, cmdPart ({ op := 0x2A, p := { pk with arg := 3, pay := [] }, chk := 99 }), cfgOf table 0 (cmdPart
      ({ op := 0x2A, p := { pk with arg := 3, pay := [] }, chk := 99 })), calm_of ?_, ?_, ?_, ?_, ?_, ?_, ?_, ?_, ?_, ?_, ?_, ?_, ?_,
      ?_, ?_, ?_⟩⟩ <;> decide +kernel

/-- Witnesses for `Obligations.NegativesMove`. -/
theorem wit_NegativesMove :
    (∃ (c : Chn) (l : Chn) (s : State) (d : Pend), Calm s ∧ l = leadOf s c ∧ s.searches = [] ∧ (chan s l).pends = [d] ∧ d.tDue ≤ s.tb.t ∧
        d.cmd.wq = none) ∧
    (∃ (c : Chn) (l : Chn) (s : State) (p : Fin 64), Calm s ∧ l = leadOf s c ∧ s.searches = [] ∧ (partOf s l p).st = .fixing ∧ s.cclk ≤
        (partOf s l p).fixEnd ∧ (partOf s l p).cmd = none) ∧
    (∃ (c : Chn) (l : Chn) (s : State) (p : Nat) (e : Nat) (pos : Nat) (k : BitVec 4) (w : Word) (rest : _), Calm s ∧ l = leadOf s c ∧
        s.searches = [] ∧ w = cfgOf s l p ∧ groupOf s l = [l] ∧ (chan s l).proof = none ∧ (chan s l).corr = [] ∧ posOf s l p (e /
        perBlock w) = some pos ∧ (chan s l).parts = [(p, { (partOf s l p) with st := .washing })] ∧ singles s l p = (e, k) :: rest ∧
        entCtl s l w p e = k ∧ bitAt k (if (partOf s l p).live then 1 else 2) = true ∧ isActive s l = true ∧ (chan s l).upd.job = none ∧
        (chan s l).upd.nextAt ≤ s.cclk ∧ (partOf s l p).cmd = none ∧ (∀ x ∈ (chan s l).cmps, x.1 ≠ s.cclk)) := by
  refine ⟨⟨0, 0, ch0 (fun k =>
      { k with pends := [{ mask := 8, cyg := 0, target := 0, tDue := 3, cmd := { op := 0x28, p := pk } }], parts := [(3, { st := .pend })] })
      table, { mask := 8, cyg := 0, target := 0, tDue := 3, cmd := { op := 0x28, p := pk } }, calm_of ?_, ?_, ?_⟩,
   ⟨0, 0, ch0 (fun k => { k with parts := [(3, { st := .fixing, fixEnd := 120 })] }) table, 3, calm_of ?_, ?_, ?_⟩,
   ⟨0, 0, ch0 (fun k => { k with parts := [(3, { st := .washing })], rows := [(40, freshRow 5 0xff 0b1100)] }) table, 3, 40, 0, 0b1100,
      cfgOf table 0 3, [], calm_of ?_, ?_, ?_, ?_, ?_, ?_, ?_, ?_, ?_, ?_, ?_, ?_, ?_, ?_⟩⟩ <;> decide +kernel

/-- Witnesses for `Obligations.GroupCommands`. -/
theorem wit_GroupCommands :
    (∃ (p : Pkt) (s : State) (k : Chn) (part : Nat) (w : Word), FwReady s ∧ GoodHead 0x2B p ∧ part < 64 ∧ p.arg = BitVec.ofNat 24 (k.val * 2
        ^ 6 + part) ∧ p.pay = [w] ∧ ownerBars s k part p.ap = false ∧ fld w 14 0 = 0 ∧ cfgBad s k w = false ∧ isLead s k = true ∧
        (partOf s (leadOf s k) part).st = .steady ∧ changeBad s k part (cfgOf s k part) w = none ∧ cfgOn w = true ∧ cfgOn (cfgOf s k
        part) = false ∧ settlePipe s.cclk (takenIn p s) = takenIn p s) ∧
    (∃ (p : Pkt) (s : State) (c : Chn) (l : Chn), FwReady s ∧ Settled s ∧ p.pay = [] ∧ p.arg = BitVec.ofNat 24 (c.val * 2 ^ 6) ∧ l = leadOf
        s c ∧ GoodHead 0x58 p ∧ (chan s l).quiesced = false) ∧
    (∃ (p : Pkt) (s : State) (c : Chn) (l : Chn), FwReady s ∧ Settled s ∧ p.pay = [] ∧ p.arg = BitVec.ofNat 24 (c.val * 2 ^ 6) ∧ l = leadOf
        s c ∧ GoodHead 0x59 p) ∧
    (∃ (p : Pkt) (s : State), FwReady s ∧ GoodHead 0x5A p ∧ lockBad (cmdOf 0x5A p s) s = none ∧ fld p.arg 0 0 = 0 ∧ (∀ c : Chn, (chan s
        c).upd.job = none)) := by
  refine ⟨⟨{ pk with arg := 5, pay := [0x8020000000050000] }, table, 0, 5, 0x8020000000050000, ready_of ?_, head_of ?_, ?_, ?_, ?_, ?_, ?_, ?_,
      ?_, ?_, ?_⟩,
   ⟨{ pk with arg := 64 }, table, 1, 1, ready_of ?_, settled_of ?_, ?_, ?_, ?_, head_of ?_, ?_⟩,
   ⟨{ pk with arg := 64 }, table, 1, 1, ready_of ?_, settled_of ?_, ?_, ?_, ?_, head_of ?_⟩,
   ⟨{ pk with arg := 0x3300 }, { base with ch := Vector.replicate 4 { ready := true, quiesced := true } }, ready_of ?_, head_of ?_, ?_⟩⟩ <;> decide +kernel

/-- Witnesses for `Obligations.ArrayUpkeep`. -/
theorem wit_ArrayUpkeep :
    (∃ (c : Chn) (s : State) (b : _) (r : _), Calm s ∧ s.searches = [] ∧ s.xpo.debits = [] ∧ s.xpo.refAt = s.cclk ∧ leadOf s c = c ∧
        isActive s c = true ∧ scrubNext (chan s c) = some (b, r, false) ∧ r ≠ 8191 ∧ (winOf s c).scrub < regF s 0x2002C 6 0) ∧
    (∃ (c : Chn) (s : State) (y : _), Calm s ∧ s.searches = [] ∧ s.xpo.debits = [] ∧ s.xpo.refAt = s.cclk ∧ leadOf s c = c ∧ isActive s c =
        true ∧ groupOf s c = [c] ∧ (chan s c).corr = [y] ∧ s.cclk ≤ (chan s c).upd.nextAt ∧ y.row < 8192 ∧ (∀ x ∈ (chan s c).cmps, x.1 ≠
        (chan s c).upd.nextAt) ∧ (∀ pos, posServed (chan s c) y.blk = some pos → writePhys (chan s c) pos = [y.blk])) ∧
    (∃ (c : Chn) (s : State) (b : _) (rest : _), Calm s ∧ s.searches = [] ∧ s.xpo.debits = [] ∧ s.xpo.refAt = s.cclk ∧ leadOf s c = c ∧
        isActive s c = true ∧ (chan s c).rebuild = b :: rest ∧ (chan s c).pendDec = [] ∧ (chan s c).rebuildRow = 0 ∧ steadySlack s c =
        true) ∧
    (∃ (c : Chn) (s : State) (x : LockCopy), Calm s ∧ s.searches = [] ∧ s.xpo.debits = [] ∧ s.xpo.refAt = s.cclk ∧ leadOf s c = c ∧ isActive
        s c = true ∧ (chan s c).copy = some x ∧ (lockMs x.cmd).head? = some c ∧ (lockMd x.cmd = 1 ∨ lockMd x.cmd = 3) ∧ (∀ m ∈ lockMs
        x.cmd, leadOf s m = m) ∧ s.cclk ≤ x.start + 90112 ∧ x.cmd.wq = none) := by
  refine ⟨⟨0, ch0 (fun k => { k with scrubAt := 40, rows := [(40, freshRow 5 0xff 8)] }) table, 0, 40, calm_of ?_, ?_, ?_, ?_, ?_, ?_⟩,
   ⟨0, ch0 (fun k => { k with rows := [(40, { freshRow 5 0xff 8 with d := 4 })], corr := [⟨0, 40, 90⟩], upd := { nextAt := 110 } }) table,
      ⟨0, 40, 90⟩, calm_of ?_, ?_, ?_, ?_, ?_, ?_, ?_, ?_, ?_⟩,
   ⟨0, ch0 (fun k => { k with rows := [(40, freshRow 5 0xff 8)], rebuild := [0, 7] })
      { table with xpo := { table.xpo with effMw := 100000 } }, 0, [7], calm_of ?_, ?_, ?_, ?_, ?_, ?_, ?_⟩,
   ⟨0, ch0 (fun k => { k with copy := some ⟨{ op := 0x5A, p := { pk with arg := 0x3301 } }, 50⟩, rows := [(40, freshRow 5 0xff 8)] })
      table, ⟨{ op := 0x5A, p := { pk with arg := 0x3301 } }, 50⟩, calm_of ?_, ?_, ?_, ?_, ?_, ?_, ?_, ?_, ?_⟩⟩ <;> decide +kernel

/-- Witnesses for `Obligations.ProofPasses`. -/
theorem wit_ProofPasses :
    (∃ (c : Chn) (t5 : Fin 5) (s : State) (r : ProofRun), Calm s ∧ t5.val = c.val ∧ s.searches = [] ∧ s.xpo.debits = [] ∧ s.xpo.refAt =
        s.cclk ∧ isActive s c = true ∧ (chan s c).proof = some r ∧ r.failed = none ∧ (winOf s c).proof < regF s 0x20028 21 16 + 1 ∧
        r.phase = 3 ∧ r.op + 1 < 98304) ∧
    (∃ (c : Chn) (t5 : Fin 5) (s : State) (r : ProofRun) (x : _), Calm s ∧ t5.val = c.val ∧ s.searches = [] ∧ s.xpo.debits = [] ∧
        s.xpo.refAt = s.cclk ∧ isActive s c = true ∧ (chan s c).proof = some r ∧ r.failed = none ∧ (winOf s c).proof < regF s 0x20028 21
        16 + 1 ∧ r.phase = 1 ∧ r.op + 1 < 8192 ∧ mget (chan s c).rows (r.blk * 8192 + r.op) = some x) ∧
    (∃ (c : Chn) (t5 : Fin 5) (s : State) (r : ProofRun), Calm s ∧ t5.val = c.val ∧ s.searches = [] ∧ s.xpo.debits = [] ∧ s.xpo.refAt =
        s.cclk ∧ isActive s c = true ∧ (chan s c).proof = some r ∧ r.phase = 2) ∧
    (∃ (c : Chn) (t5 : Fin 5) (s : State) (r : ProofRun), Calm s ∧ t5.val = c.val ∧ s.searches = [] ∧ s.xpo.debits = [] ∧ s.xpo.refAt =
        s.cclk ∧ isActive s c = true ∧ (chan s c).proof = some r ∧ r.phase = 6) ∧
    (∃ (c : Chn) (t5 : Fin 5) (s : State) (r : ProofRun), Calm s ∧ t5.val = c.val ∧ s.searches = [] ∧ s.xpo.debits = [] ∧ s.xpo.refAt =
        s.cclk ∧ isActive s c = true ∧ (chan s c).proof = some r ∧ (r.phase = 7 ∨ r.failed ≠ none)) ∧
    (∃ (c : Chn) (t5 : Fin 5) (s : State), Calm s ∧ t5.val = c.val ∧ s.searches = [] ∧ s.xpo.debits = [] ∧ s.xpo.refAt = s.cclk ∧ isActive s
        c = true ∧ regB s 0x82000 31 = true ∧ proofFull s c = false ∧ s.cclk ≤ (chan s c).nextAuto) ∧
    (∃ (c : Chn) (t5 : Fin 5) (s : State) (r : RepairRun) (src : Nat), Calm s ∧ t5.val = c.val ∧ s.searches = [] ∧ s.xpo.debits = [] ∧
        s.xpo.refAt = s.cclk ∧ isActive s c = true ∧ (chan s c).repair = some r ∧ src = (if r.pos = 65 then 65 else servePhys (chan s c)
        r.pos) ∧ src ≠ 64 ∧ s.cclk ≤ r.start + 32768) := by
  refine ⟨⟨0, 0, ch0 (fun k =>
      { k with proof := some ({ cal := false, blk := 0, phase := 3, op := 9, rows := true }), rows := [(9, freshRow 5 0xff 8)] }) table,
      { cal := false, blk := 0, phase := 3, op := 9, rows := true }, calm_of ?_, ?_, ?_, ?_, ?_, ?_, ?_, ?_⟩,
   ⟨0, 0, ch0 (fun k =>
      { k with proof := some ({ cal := false, blk := 0, phase := 1, op := 9, rows := true }), rows := [(9, freshRow 5 0xff 8)] }) table,
      { cal := false, blk := 0, phase := 1, op := 9, rows := true }, freshRow 5 0xff 8, calm_of ?_, ?_, ?_, ?_, ?_, ?_, ?_, ?_, ?_⟩,
   ⟨0, 0, ch0 (fun k =>
      { k with proof := some ({ cal := false, blk := 0, phase := 2, op := 0, rows := true }), rows := [(9, freshRow 5 0xff 8)] }) table,
      { cal := false, blk := 0, phase := 2, op := 0, rows := true }, calm_of ?_, ?_, ?_, ?_, ?_⟩,
   ⟨0, 0, ch0 (fun k =>
      { k with proof := some ({ cal := false, blk := 0, phase := 6, op := 0, rows := true, redirected := true }), rows := [(9, freshRow 5 0xff 8)] })
      table, { cal := false, blk := 0, phase := 6, op := 0, rows := true, redirected := true }, calm_of ?_, ?_, ?_, ?_, ?_⟩,
   ⟨0, 0, ch0 (fun k =>
      { k with proof := some ({ cal := false, blk := 0, phase := 7, op := 0, rows := true }), rows := [(9, freshRow 5 0xff 8)] }) table,
      { cal := false, blk := 0, phase := 7, op := 0, rows := true }, calm_of ?_, ?_, ?_, ?_, ?_⟩,
   ⟨0, 0, ch0 (fun k => { k with nextAuto := 130 }) (regs [(0x82000, 0x80000005)] table), calm_of ?_, ?_, ?_, ?_, ?_, ?_⟩,
   ⟨0, 0, ch0 (fun k =>
      { k with repair := some { pos := 0, start := 90, wasHeld := true }, heldBlk := some 0, rows := [(65 * 8192 + 9, { freshRow 5 0xff 8 with d := 4 })] })
      table, { pos := 0, start := 90, wasHeld := true }, 65, calm_of ?_, ?_, ?_, ?_, ?_, ?_, ?_⟩⟩ <;> decide +kernel

/-- Witnesses for `Obligations.ServicePasses`. -/
theorem wit_ServicePasses :
    (∃ (p : Pkt) (s : State) (c : Chn) (op : Byte) (i : Instr) (cal : Bool), FwReady s ∧ p.pay = [] ∧ p.arg = BitVec.ofNat 24 (c.val * 2 ^
        6) ∧ (op = 0x5B ∧ i = .proofStart p ∧ cal = false ∨ op = 0x5C ∧ i = .calStart p ∧ cal = true) ∧ GoodHead op p ∧ proofFull s c =
        false) ∧
    (∃ (p : Pkt) (s : State) (c : Chn) (b : _), FwReady s ∧ p.pay = [] ∧ p.arg = BitVec.ofNat 24 (c.val * 2 ^ 6) ∧ GoodHead 0x5D p ∧ (chan s
        c).heldBlk = some b ∧ repairUsed (chan s c) = false ∧ s.sramProof = none) ∧
    (∃ (p : Pkt) (s : State) (a : Nat), FwReady s ∧ GoodHead 0x5D p ∧ a < 2 ^ 32 ∧ p.arg = BitVec.ofNat 24 (2 * 2 ^ 22) ∧ p.pay =
        [BitVec.ofNat 64 a] ∧ memId (a / 8) ≠ none ∧ memId (a / 8) ≠ some 9 ∧ remapsUsed s (sramRow (a / 8)).1 < 32 ∧ s.sramProof = none
        ∧ spareBusy (chan s 0) = false) := by
  refine ⟨⟨{ pk with arg := 0 }, table, 0, 0x5B, .proofStart { pk with arg := 0 }, false, ready_of ?_, ?_, ?_, ?_, head_of ?_, ?_⟩,
   ⟨{ pk with arg := 0 }, ch0 (fun k => { k with heldBlk := some 0 }) table, 0, 0, ready_of ?_, ?_, ?_, head_of ?_, ?_⟩,
   ⟨{ pk with arg := 0x800000, pay := [0x1000] }, table, 0x1000, ready_of ?_, head_of ?_, ?_, ?_, ?_, ?_, ?_⟩⟩ <;> decide +kernel

/-- Witnesses for `Obligations.HandlerPagesKept`. -/
theorem wit_HandlerPagesKept :
    (∃ (p : Pkt) (s : State) (a : Nat) (b : Nat) (h : Nat), FwReady s ∧ GoodHead 0x5B p ∧ p.arg = BitVec.ofNat 24 (2 ^ 23) ∧ b < 2 ^ 20 ∧
        p.pay = [BitVec.ofNat 64 (a * 2 ^ 32 + b)] ∧ a ≤ b ∧ b ≤ a + 512 ∧ (∀ g, a ≤ g → g ≤ b → lendable g = true) ∧ h = (if
        s.fw.active then 0x1D00 else 0x1C00) ∧ a ≤ h + 15 ∧ h ≤ b) := by
  refine ⟨{ pk with arg := 0x800000, pay := [0x1C0500001C20] }, table, 0x1C05, 0x1C20, 0x1C00, ready_of ?_, head_of ?_, ?_, ?_, ?_, ?_, ?_,
    fun g h k => by have e := (show ∀ i < 512, lendable (7168 + i) = true by decide +kernel) (g - 7168) (by omega); rwa [show 7168 + (g - 7168) = g by omega] at e,
    ?_⟩ <;> decide +kernel

/-- Witnesses for `Obligations.StreamRecords`. -/
theorem wit_StreamRecords :
    (∃ (p : Pkt) (s : State) (h : Nat) (n : Nat), Serving s ∧ s.searches = [] ∧ h < 2 ^ 18 ∧ n = s.cclk ∧ s.se.free ≤ n ∧ n % max 1 (regF s
        0x60000 12 0) ≠ 0 ∧ sleepers s [recWord h 0] = [] ∧ p.arg = BitVec.ofNat 24 h ∧ GoodHead 0x30 p ∧ p.pay.length = 8 ∧ bitAt (payW
        (cmdOf 0x30 p s) 0) 0 = false ∧ bitAt (payW (cmdOf 0x30 p s) 0) 58 = false ∧ recBad s (payW (cmdOf 0x30 p s) 0) = false) ∧
    (∃ (p : Pkt) (s : State) (h : Nat) (n : Nat) (ws : List Word), Serving s ∧ s.searches = [] ∧ h < 2 ^ 18 ∧ n = s.cclk ∧ s.se.free ≤ n ∧ n
        % max 1 (regF s 0x60000 12 0) ≠ 0 ∧ sleepers s [recWord h 0] = [] ∧ p.arg = BitVec.ofNat 24 h ∧ GoodHead 0x31 p ∧ p.pay = [] ∧
        ws.length = 8 ∧ (∀ k (b : k < ws.length), rawWord s (recWord h k) = some (encode ws[k]))) ∧
    (∃ (p : Pkt) (s : State) (h : Nat) (n : Nat) (a : Word) (b : Word), Serving s ∧ s.searches = [] ∧ h < 2 ^ 18 ∧ n = s.cclk ∧ s.se.free ≤
        n ∧ n % max 1 (regF s 0x60000 12 0) ≠ 0 ∧ p.arg = BitVec.ofNat 24 (2 ^ 23 + h) ∧ GoodHead 0x32 p ∧ p.pay = [] ∧ rawWord s
        (recWord h 6) = some (encode a) ∧ rawWord s (recWord h 7) = some (encode b)) ∧
    (∃ (p : Pkt) (s : State) (h : Nat) (n : Nat) (op : Byte) (i : Instr), Serving s ∧ s.searches = [] ∧ h < 2 ^ 18 ∧ n = s.cclk ∧ (n <
        s.se.free ∨ n % max 1 (regF s 0x60000 12 0) = 0) ∧ p.arg = BitVec.ofNat 24 h ∧ (op = 0x30 ∧ i = .stmWr p ∨ op = 0x31 ∧ i =
        .stmRd p ∨ op = 0x32 ∧ i = .stmClr p) ∧ GoodHead op p) ∧
    (∃ (s : State) (h : Nat) (n : Nat), Serving s ∧ s.searches = [] ∧ h < 2 ^ 18 ∧ n = s.cclk ∧ s.wdNext = h ∧ s.wdAt ≤ s.cclk ∧ regB s
        0x60008 31 = true ∧ asleep s (recWord h 0) = false ∧ rawWord s (recWord h 0) = some (encode 0)) ∧
    (∃ (s : State) (h : Nat) (n : Nat), Serving s ∧ s.searches = [] ∧ h < 2 ^ 18 ∧ n = s.cclk ∧ s.bgNext = h ∧ s.bgAt ≤ s.cclk ∧ regF s
        0x60000 12 0 ≠ 0 ∧ s.cclk % regF s 0x60000 12 0 = 0 ∧ asleep s (recWord h 0) = false ∧ rawWord s (recWord h 0) = some (encode
        0)) := by
  refine ⟨⟨{ pk with arg := 5, pay := [0x8000000000000000, 1, 2, 3, 4, 5, 6, 7] }, table, 5, 100, serving_of ?_, ?_, ?_, ?_, ?_, ?_, ?_, ?_,
      head_of ?_, ?_⟩,
   ⟨{ pk with arg := 5 }, mem ((List.range 8).map fun i => (recWord 5 i, BitVec.ofNat 64 (i + 9))) table, 5, 100, (List.range 8).map fun i
      => BitVec.ofNat 64 (i + 9), serving_of ?_, ?_, ?_, ?_, ?_, ?_, ?_, ?_, head_of ?_, ?_⟩,
   ⟨{ pk with arg := 0x800005 }, mem ((List.range 8).map fun i => (recWord 5 i, BitVec.ofNat 64 (i + 9))) table, 5, 100, 15, 16, serving_of
      ?_, ?_, ?_, ?_, ?_, ?_, ?_, head_of ?_, ?_⟩,
   ⟨{ pk with arg := 5 }, { table with se := { free := 101 } }, 5, 100, 0x31, .stmRd { pk with arg := 5 }, serving_of ?_, ?_, ?_, ?_, ?_,
      ?_, ?_, head_of ?_⟩,
   ⟨{ mem [(recWord 5 0, 0)] (regs [(0x60008, 0x80000000)] table) with wdNext := 5 }, 5, 100, serving_of ?_, ?_, ?_, ?_, ?_, ?_⟩,
   ⟨{ mem [(recWord 5 0, 0)] (regs [(0x60000, 0x01020014)] table) with bgNext := 5 }, 5, 100, serving_of ?_, ?_, ?_, ?_, ?_, ?_, ?_⟩⟩ <;> decide +kernel

/-- Witnesses for `Obligations.QueueCommands`. -/
theorem wit_QueueCommands :
    (∃ (p : Pkt) (s : State) (s1 : State) (q : Nat), Serving s ∧ s.qm.unit.free ≤ s.cclk ∧ q < 2 ^ 18 ∧ p.arg = BitVec.ofNat 24 q ∧ (qDesc s
        q).enable = true ∧ s1 = queueIn p s ∧ GoodHead 0x39 p ∧ (qDesc s q).work = true ∧ 2 ≤ p.pay.length ∧ p.pay.length = fld (payW
        (cmdOf 0x39 p s) 0) 63 61 + 1 ∧ workWordBad (payW (cmdOf 0x39 p s) 0) = false ∧ workOpcodes.contains (BitVec.ofNat 8 (fld (payW
        (cmdOf 0x39 p s) 1) 63 56)) = true ∧ fld (payW (cmdOf 0x39 p s) 1) 31 24 + 2 = p.pay.length ∧ p.pay.length ≤ startRoom (qDesc s
        q) s.cclk ∧ (∀ h ∈ s.qm.held, h.q.toNat ≠ q)) ∧
    (∃ (p : Pkt) (s : State) (s1 : State) (q : Nat), Serving s ∧ s.qm.unit.free ≤ s.cclk ∧ q < 2 ^ 18 ∧ p.arg = BitVec.ofNat 24 q ∧ (qDesc s
        q).enable = true ∧ s1 = queueIn p s ∧ GoodHead 0x3A p ∧ ¬ QueueRoomy 0x3A p s) ∧
    (∃ (p : Pkt) (s : State) (s1 : State) (q : Nat) (mx : Nat) (left : Nat) (vs : List Word) (u : State) (t : _), Serving s ∧ s.qm.unit.free
        ≤ s.cclk ∧ q < 2 ^ 18 ∧ p.arg = BitVec.ofNat 24 q ∧ (qDesc s q).enable = true ∧ s1 = queueIn p s ∧ GoodHead 0x3A p ∧ QueueRoomy
        0x3A p s ∧ (qDesc s q).work = false ∧ mx < 256 ∧ p.pay = [BitVec.ofNat 64 mx] ∧ takeWords (qDesc s q) (min mx (visible (qDesc s
        q) s.cclk)) (qDesc s q).rd (qDesc s q).rdLeft s1 = (vs, false, left, u) ∧ t = dropWords q (min mx (visible (qDesc s q) s.cclk))
        left s.cclk u) ∧
    (∃ (p : Pkt) (s : State) (s1 : State) (q : Nat), Serving s ∧ s.qm.unit.free ≤ s.cclk ∧ q < 2 ^ 18 ∧ p.arg = BitVec.ofNat 24 q ∧ (qDesc s
        q).enable = true ∧ s1 = queueIn p s ∧ GoodHead 0x3B p ∧ (qDesc s q).work = false ∧ p.pay = [] ∧ (qDesc s q).rdLeft ≠ 0 ∧ 0 <
        visible (qDesc s q) s.cclk) ∧
    (∃ (p : Pkt) (s : State) (s1 : State) (q : Nat), Serving s ∧ s.qm.unit.free ≤ s.cclk ∧ q < 2 ^ 18 ∧ p.arg = BitVec.ofNat 24 q ∧ (qDesc s
        q).enable = true ∧ s1 = queueIn p s ∧ GoodHead 0x3C p ∧ p.pay = []) ∧
    (∃ (p : Pkt) (s : State) (q : Nat) (d : QDesc) (wh : Bool), Serving s ∧ s.qm.unit.free ≤ s.cclk ∧ q < 2 ^ 18 ∧ p.arg = BitVec.ofNat 24
        (q + if wh then 2 ^ 18 else 0) ∧ qDesc s q = d ∧ d.enable = true ∧ d.wr < 2 ^ (d.k + 1) ∧ d.rd < 2 ^ (d.k + 1) ∧ 2 ≤ d.k ∧ d.k ≤
        16 ∧ d.base + 2 ^ d.k ≤ 2 ^ 20 ∧ getReg s (0x70108 + d.cls * 0x10) = 0 ∧ d.cAt < s.cclk ∧ d.pAt < s.cclk ∧ depth d ≤ 2 ^ d.k ∧
        wh = false ∧ GoodHead 0x39 p ∧ (∀ h ∈ s.qm.held, h.q.toNat ≠ q) ∧ d.work = true ∧ 2 ≤ p.pay.length ∧ p.pay.length = fld (nth
        p.pay 0 0) 63 61 + 1 ∧ workWordBad (nth p.pay 0 0) = false ∧ workOpcodes.contains (BitVec.ofNat 8 (fld (nth p.pay 1 0) 63 56)) =
        true ∧ fld (nth p.pay 1 0) 31 24 + 2 = p.pay.length ∧ depth d + p.pay.length ≤ 2 ^ d.k) ∧
    (∃ (p : Pkt) (s : State) (q : Nat) (d : QDesc) (wh : Bool) (mx : Nat) (n : Nat) (ws : List Word), Serving s ∧ s.qm.unit.free ≤ s.cclk ∧
        q < 2 ^ 18 ∧ p.arg = BitVec.ofNat 24 (q + if wh then 2 ^ 18 else 0) ∧ qDesc s q = d ∧ d.enable = true ∧ d.wr < 2 ^ (d.k + 1) ∧
        d.rd < 2 ^ (d.k + 1) ∧ 2 ≤ d.k ∧ d.k ≤ 16 ∧ d.base + 2 ^ d.k ≤ 2 ^ 20 ∧ getReg s (0x70108 + d.cls * 0x10) = 0 ∧ d.cAt < s.cclk ∧
        d.pAt < s.cclk ∧ depth d ≤ 2 ^ d.k ∧ GoodHead 0x3A p ∧ QueueRoomy 0x3A p s ∧ d.work = false ∧ mx < 256 ∧ p.pay = [BitVec.ofNat
        64 mx] ∧ n = (if wh then wholeFit s d (depth d) mx 256 0 d.rdLeft else min mx (depth d)) ∧ ws.length = n ∧ (∀ i (h : i <
        ws.length), rawWord s (qAddr d (d.rd + i)) = some (encode ws[i]))) ∧
    (∃ (p : Pkt) (s : State) (q : Nat) (d : QDesc) (wh : Bool) (n : Nat), Serving s ∧ s.qm.unit.free ≤ s.cclk ∧ q < 2 ^ 18 ∧ p.arg =
        BitVec.ofNat 24 (q + if wh then 2 ^ 18 else 0) ∧ qDesc s q = d ∧ d.enable = true ∧ d.wr < 2 ^ (d.k + 1) ∧ d.rd < 2 ^ (d.k + 1) ∧
        2 ≤ d.k ∧ d.k ≤ 16 ∧ d.base + 2 ^ d.k ≤ 2 ^ 20 ∧ getReg s (0x70108 + d.cls * 0x10) = 0 ∧ d.cAt < s.cclk ∧ d.pAt < s.cclk ∧ depth
        d ≤ 2 ^ d.k ∧ wh = false ∧ GoodHead 0x3B p ∧ d.work = false ∧ p.pay = [] ∧ (d.rdLeft ≠ 0 ∧ n = min d.rdLeft (depth d) ∨ d.rdLeft
        = 0 ∧ 0 < depth d ∧ (∃ w, rawWord s (qAddr d d.rd) = some (encode w) ∧ n = min (fld w 63 61 + 1) (depth d)) ∨ depth d = 0 ∧ n =
        0)) ∧
    (∃ (p : Pkt) (s : State) (q : Nat) (d : QDesc) (wh : Bool), Serving s ∧ s.qm.unit.free ≤ s.cclk ∧ q < 2 ^ 18 ∧ p.arg = BitVec.ofNat 24
        (q + if wh then 2 ^ 18 else 0) ∧ qDesc s q = d ∧ d.enable = true ∧ d.wr < 2 ^ (d.k + 1) ∧ d.rd < 2 ^ (d.k + 1) ∧ 2 ≤ d.k ∧ d.k ≤
        16 ∧ d.base + 2 ^ d.k ≤ 2 ^ 20 ∧ getReg s (0x70108 + d.cls * 0x10) = 0 ∧ d.cAt < s.cclk ∧ d.pAt < s.cclk ∧ depth d ≤ 2 ^ d.k ∧
        wh = false ∧ GoodHead 0x3C p ∧ p.pay = [] ∧ (∀ h ∈ s.qm.held, h.q.toNat ≠ q) ∧ beingWritten s q s.cclk = false) := by
  refine ⟨⟨{ pk with arg := 5, pay := [0x3000000000000000, 0x2800000000000003] },
      { table with qm := { desc := [(5, { work := true, base := 64, k := 4, wr := 3, rd := 3, ap := 2 })] } }, (queueIn
      ({ pk with arg := 5, pay := [0x3000000000000000, 0x2800000000000003] })
      ({ table with qm := { desc := [(5, { work := true, base := 64, k := 4, wr := 3, rd := 3, ap := 2 })] } })), 5, serving_of ?_, ?_,
      ?_, ?_, ?_, ?_, head_of ?_, ?_, ?_, ?_, ?_, ?_⟩,
   ⟨{ pk with arg := 5, pay := [200] },
      { mem [(queueBase + 64 + 3, 9), (queueBase + 64 + 4, 10)] ({ table with qm := { desc := [(5, { work := false, base := 64, k := 4, wr := 5, rd := 3, rdLeft := 1 })] } }) with replies := List.replicate 80 { ap := 0, op := 0, status := 0, tag := 0, info := 0, pay := List.replicate 200 0, id := 1, ready := 0 } },
      (queueIn ({ pk with arg := 5, pay := [200] })
      ({ mem [(queueBase + 64 + 3, 9), (queueBase + 64 + 4, 10)] ({ table with qm := { desc := [(5, { work := false, base := 64, k := 4, wr := 5, rd := 3, rdLeft := 1 })] } }) with replies := List.replicate 80 { ap := 0, op := 0, status := 0, tag := 0, info := 0, pay := List.replicate 200 0, id := 1, ready := 0 } })),
      5, serving_of ?_, ?_, ?_, ?_, ?_, ?_, head_of ?_, queueTight_of ?_⟩,
   ⟨{ pk with arg := 5, pay := [3] }, mem [(queueBase + 64 + 3, 9), (queueBase + 64 + 4, 10)]
      ({ table with qm := { desc := [(5, { work := false, base := 64, k := 4, wr := 5, rd := 3, rdLeft := 1 })] } }), (queueIn
      ({ pk with arg := 5, pay := [3] }) (mem [(queueBase + 64 + 3, 9), (queueBase + 64 + 4, 10)]
      ({ table with qm := { desc := [(5, { work := false, base := 64, k := 4, wr := 5, rd := 3, rdLeft := 1 })] } }))), 5, 3, (takeWords
      (qDesc (mem [(queueBase + 64 + 3, 9), (queueBase + 64 + 4, 10)]
      ({ table with qm := { desc := [(5, { work := false, base := 64, k := 4, wr := 5, rd := 3, rdLeft := 1 })] } })) 5) 2 3 1 ((queueIn
      ({ pk with arg := 5, pay := [3] }) (mem [(queueBase + 64 + 3, 9), (queueBase + 64 + 4, 10)]
      ({ table with qm := { desc := [(5, { work := false, base := 64, k := 4, wr := 5, rd := 3, rdLeft := 1 })] } }))))).2.2.1,
      (takeWords (qDesc (mem [(queueBase + 64 + 3, 9), (queueBase + 64 + 4, 10)]
      ({ table with qm := { desc := [(5, { work := false, base := 64, k := 4, wr := 5, rd := 3, rdLeft := 1 })] } })) 5) 2 3 1 ((queueIn
      ({ pk with arg := 5, pay := [3] }) (mem [(queueBase + 64 + 3, 9), (queueBase + 64 + 4, 10)]
      ({ table with qm := { desc := [(5, { work := false, base := 64, k := 4, wr := 5, rd := 3, rdLeft := 1 })] } }))))).1, (takeWords
      (qDesc (mem [(queueBase + 64 + 3, 9), (queueBase + 64 + 4, 10)]
      ({ table with qm := { desc := [(5, { work := false, base := 64, k := 4, wr := 5, rd := 3, rdLeft := 1 })] } })) 5) 2 3 1 ((queueIn
      ({ pk with arg := 5, pay := [3] }) (mem [(queueBase + 64 + 3, 9), (queueBase + 64 + 4, 10)]
      ({ table with qm := { desc := [(5, { work := false, base := 64, k := 4, wr := 5, rd := 3, rdLeft := 1 })] } }))))).2.2.2,
      dropWords 5 2 (takeWords (qDesc (mem [(queueBase + 64 + 3, 9), (queueBase + 64 + 4, 10)]
      ({ table with qm := { desc := [(5, { work := false, base := 64, k := 4, wr := 5, rd := 3, rdLeft := 1 })] } })) 5) 2 3 1 ((queueIn
      ({ pk with arg := 5, pay := [3] }) (mem [(queueBase + 64 + 3, 9), (queueBase + 64 + 4, 10)]
      ({ table with qm := { desc := [(5, { work := false, base := 64, k := 4, wr := 5, rd := 3, rdLeft := 1 })] } }))))).2.2.1 100
      (takeWords (qDesc (mem [(queueBase + 64 + 3, 9), (queueBase + 64 + 4, 10)]
      ({ table with qm := { desc := [(5, { work := false, base := 64, k := 4, wr := 5, rd := 3, rdLeft := 1 })] } })) 5) 2 3 1 ((queueIn
      ({ pk with arg := 5, pay := [3] }) (mem [(queueBase + 64 + 3, 9), (queueBase + 64 + 4, 10)]
      ({ table with qm := { desc := [(5, { work := false, base := 64, k := 4, wr := 5, rd := 3, rdLeft := 1 })] } }))))).2.2.2,
      serving_of ?_, ?_, ?_, ?_, ?_, ?_, head_of ?_, queueRoomy_of ?_, ?_, ?_⟩,
   ⟨{ pk with arg := 5 }, mem [(queueBase + 64 + 3, 9), (queueBase + 64 + 4, 10)]
      ({ table with qm := { desc := [(5, { work := false, base := 64, k := 4, wr := 5, rd := 3, rdLeft := 1 })] } }), (queueIn
      ({ pk with arg := 5 }) (mem [(queueBase + 64 + 3, 9), (queueBase + 64 + 4, 10)]
      ({ table with qm := { desc := [(5, { work := false, base := 64, k := 4, wr := 5, rd := 3, rdLeft := 1 })] } }))), 5, serving_of
      ?_, ?_, ?_, ?_, ?_, ?_, head_of ?_, ?_⟩,
   ⟨{ pk with arg := 5 }, mem [(queueBase + 64 + 3, 9), (queueBase + 64 + 4, 10)]
      ({ table with qm := { desc := [(5, { work := false, base := 64, k := 4, wr := 5, rd := 3, rdLeft := 1 })] } }), (queueIn
      ({ pk with arg := 5 }) (mem [(queueBase + 64 + 3, 9), (queueBase + 64 + 4, 10)]
      ({ table with qm := { desc := [(5, { work := false, base := 64, k := 4, wr := 5, rd := 3, rdLeft := 1 })] } }))), 5, serving_of
      ?_, ?_, ?_, ?_, ?_, ?_, head_of ?_, ?_⟩,
   ⟨{ pk with arg := 5, pay := [0x3000000000000000, 0x2800000000000003] },
      { table with qm := { desc := [(5, { work := true, base := 64, k := 4, wr := 3, rd := 3, ap := 2 })] } }, 5,
      { work := true, base := 64, k := 4, wr := 3, rd := 3, ap := 2 }, false, serving_of ?_, ?_, ?_, ?_, ?_, ?_, ?_, ?_, ?_, ?_, ?_, ?_,
      ?_, ?_, ?_, ?_, head_of ?_, ?_, ?_, ?_, ?_, ?_⟩,
   ⟨{ pk with arg := 5, pay := [3] }, mem [(queueBase + 64 + 3, 9), (queueBase + 64 + 4, 10)]
      ({ table with qm := { desc := [(5, { work := false, base := 64, k := 4, wr := 5, rd := 3, rdLeft := 1 })] } }), 5,
      { work := false, base := 64, k := 4, wr := 5, rd := 3, rdLeft := 1 }, false, 3, 2, [9, 10], serving_of ?_, ?_, ?_, ?_, ?_, ?_, ?_,
      ?_, ?_, ?_, ?_, ?_, ?_, ?_, ?_, head_of ?_, queueRoomy_of ?_, ?_, ?_, ?_⟩,
   ⟨{ pk with arg := 5 }, mem [(queueBase + 64 + 3, 9), (queueBase + 64 + 4, 10)]
      ({ table with qm := { desc := [(5, { work := false, base := 64, k := 4, wr := 5, rd := 3, rdLeft := 1 })] } }), 5,
      { work := false, base := 64, k := 4, wr := 5, rd := 3, rdLeft := 1 }, false, 1, serving_of ?_, ?_, ?_, ?_, ?_, ?_, ?_, ?_, ?_, ?_,
      ?_, ?_, ?_, ?_, ?_, ?_, head_of ?_, ?_⟩,
   ⟨{ pk with arg := 5 }, mem [(queueBase + 64 + 3, 9), (queueBase + 64 + 4, 10)]
      ({ table with qm := { desc := [(5, { work := false, base := 64, k := 4, wr := 5, rd := 3, rdLeft := 1 })] } }), 5,
      { work := false, base := 64, k := 4, wr := 5, rd := 3, rdLeft := 1 }, false, serving_of ?_, ?_, ?_, ?_, ?_, ?_, ?_, ?_, ?_, ?_,
      ?_, ?_, ?_, ?_, ?_, ?_, head_of ?_, ?_⟩⟩ <;> decide +kernel

/-- Witnesses for `Obligations.QueueConfigured`. -/
theorem wit_QueueConfigured :
    (∃ (p : Pkt) (s : State) (q : Nat) (w : Word), FwReady s ∧ GoodHead 0x38 p ∧ q < 2 ^ 18 ∧ p.arg = BitVec.ofNat 24 q ∧ p.pay = [w] ∧
        qCfgBad (cmdOf 0x38 p s) s = none ∧ needsBg4 (cmdOf 0x38 p s) s = false) ∧
    (∃ (p : Pkt) (s : State) (q : Nat), FwReady s ∧ GoodHead 0x38 p ∧ q < 2 ^ 18 ∧ p.arg = BitVec.ofNat 24 (q + 2 ^ 18) ∧ p.pay = [] ∧
        (qDesc s q).bad = false) ∧
    (∃ (p : Pkt) (s : State) (q : Nat), FwReady s ∧ GoodHead 0x38 p ∧ q < 2 ^ 18 ∧ p.arg = BitVec.ofNat 24 (q + 2 ^ 18) ∧ p.pay = [] ∧
        (qDesc s q).bad = true) ∧
    (∃ (p : Pkt) (s : State) (m : Nat) (k : Nat) (left : Nat) (ws : List Word), Serving s ∧ s.qm.unit.free ≤ s.cclk ∧ GoodHead 0x3D p ∧
        QueueRoomy 0x3D p s ∧ p.arg = 0 ∧ m < 256 ∧ p.pay = [BitVec.ofNat 64 m] ∧ s.qm.bankA.st = .ready ∧ s.qm.bankB.st = .fill ∧ k = 7
        * min (m / 7) ((s.qm.bankA.words - s.qm.bankA.taken) / 7) ∧ left = s.qm.bankA.words - s.qm.bankA.taken - k ∧ ws.length = k ∧ (∀
        i (h : i < ws.length), rawWord s (spillBase + s.qm.bankA.taken + i) = some (encode ws[i]))) := by
  refine ⟨⟨{ pk with arg := 5, pay := [0x8440001400000000] }, table, 5, 0x8440001400000000, ready_of ?_, head_of ?_, ?_, ?_⟩,
   ⟨{ pk with arg := 0x40005 }, table, 5, ready_of ?_, head_of ?_, ?_⟩,
   ⟨{ pk with arg := 0x40005 }, { table with qm := { desc := [(5, { work := false, base := 64, k := 4, bad := true })] } }, 5, ready_of ?_,
      head_of ?_, ?_⟩,
   ⟨{ pk with arg := 0, pay := [9] }, mem ((List.range 14).map fun i => (spillBase + i, BitVec.ofNat 64 (i + 3)))
      { table with qm := { bankA := ⟨.ready, 14, 0⟩, bankB := ⟨.fill, 0, 0⟩ } }, 9, 7, 7, (List.range 7).map fun i => BitVec.ofNat 64 (i
      + 3), serving_of ?_, ?_, head_of ?_, queueRoomy_of ?_, ?_, ?_, ?_, ?_, ?_, ?_⟩⟩ <;> decide +kernel

/-- Witnesses for `Obligations.QueueEvents`. -/
theorem wit_QueueEvents :
    (∃ (s : State) (q : Nat) (d : QDesc) (x : _) (r : _) (n : _), Calm s ∧ s.searches = [] ∧ q < 2 ^ 18 ∧ qDesc s q = d ∧ d.wr < 2 ^ (d.k +
        1) ∧ d.rd < 2 ^ (d.k + 1) ∧ 2 ≤ d.k ∧ d.k ≤ 16 ∧ d.base + 2 ^ d.k ≤ 2 ^ 20 ∧ getReg s (0x70108 + d.cls * 0x10) = 0 ∧ d.cAt <
        s.cclk ∧ d.pAt < s.cclk ∧ depth d ≤ 2 ^ d.k ∧ s.qm.staged = x :: r ∧ x.q.toNat = q ∧ x.tries = 0 ∧ d.enable = true ∧ d.work =
        false ∧ d.items = 1 ∧ n = max (x.at_ + 1) s.qm.evFree ∧ s.cclk ≤ n ∧ depth d + 2 ≤ 2 ^ d.k) ∧
    (∃ (s : State) (q : Nat) (d : QDesc) (x : _) (r : _), Calm s ∧ s.searches = [] ∧ q < 2 ^ 18 ∧ qDesc s q = d ∧ d.wr < 2 ^ (d.k + 1) ∧
        d.rd < 2 ^ (d.k + 1) ∧ 2 ≤ d.k ∧ d.k ≤ 16 ∧ d.base + 2 ^ d.k ≤ 2 ^ 20 ∧ getReg s (0x70108 + d.cls * 0x10) = 0 ∧ d.cAt < s.cclk ∧
        d.pAt < s.cclk ∧ depth d ≤ 2 ^ d.k ∧ s.qm.staged = x :: r ∧ x.q.toNat = q ∧ x.tries = 0 ∧ d.enable = false ∧ s.qm.spill = [] ∧
        max (x.at_ + 1) s.qm.evFree ≤ s.cclk) ∧
    (∃ (s : State) (q : Nat) (d : QDesc) (x : _) (r : _), Calm s ∧ s.searches = [] ∧ q < 2 ^ 18 ∧ qDesc s q = d ∧ d.wr < 2 ^ (d.k + 1) ∧
        d.rd < 2 ^ (d.k + 1) ∧ 2 ≤ d.k ∧ d.k ≤ 16 ∧ d.base + 2 ^ d.k ≤ 2 ^ 20 ∧ getReg s (0x70108 + d.cls * 0x10) = 0 ∧ d.cAt < s.cclk ∧
        d.pAt < s.cclk ∧ depth d ≤ 2 ^ d.k ∧ s.qm.spill = x :: r ∧ fillIsA s.qm = true ∧ s.qm.bankA.words + 7 ≤ 8192 ∧ regB s 0x71000 30
        = false) ∧
    (∃ (s : State) (q : Nat) (d : QDesc) (h : _), Calm s ∧ s.searches = [] ∧ q < 2 ^ 18 ∧ qDesc s q = d ∧ d.wr < 2 ^ (d.k + 1) ∧ d.rd < 2 ^
        (d.k + 1) ∧ 2 ≤ d.k ∧ d.k ≤ 16 ∧ d.base + 2 ^ d.k ≤ 2 ^ 20 ∧ getReg s (0x70108 + d.cls * 0x10) = 0 ∧ d.cAt < s.cclk ∧ d.pAt <
        s.cclk ∧ depth d ≤ 2 ^ d.k ∧ s.qm.held = [h] ∧ h.q = BitVec.ofNat 18 q ∧ h.cmd.wq = none ∧ depth d + h.item.length ≤ 2 ^ d.k ∧
        s.cclk ≤ h.due ∧ d.enable = true) ∧
    (∃ (s : State) (q : Nat) (d : QDesc) (h : _), Calm s ∧ s.searches = [] ∧ q < 2 ^ 18 ∧ qDesc s q = d ∧ d.wr < 2 ^ (d.k + 1) ∧ d.rd < 2 ^
        (d.k + 1) ∧ 2 ≤ d.k ∧ d.k ≤ 16 ∧ d.base + 2 ^ d.k ≤ 2 ^ 20 ∧ getReg s (0x70108 + d.cls * 0x10) = 0 ∧ d.cAt < s.cclk ∧ d.pAt <
        s.cclk ∧ depth d ≤ 2 ^ d.k ∧ s.qm.held = [h] ∧ h.q = BitVec.ofNat 18 q ∧ h.cmd.wq = none ∧ 2 ^ d.k < depth d + h.item.length ∧
        s.cclk ≤ h.due) ∧
    (∃ (s : State) (q : Nat) (d : QDesc) (r : Reply), Calm s ∧ s.searches = [] ∧ q < 2 ^ 18 ∧ qDesc s q = d ∧ d.wr < 2 ^ (d.k + 1) ∧ d.rd <
        2 ^ (d.k + 1) ∧ 2 ≤ d.k ∧ d.k ≤ 16 ∧ d.base + 2 ^ d.k ≤ 2 ^ 20 ∧ getReg s (0x70108 + d.cls * 0x10) = 0 ∧ d.cAt < s.cclk ∧ d.pAt
        < s.cclk ∧ depth d ≤ 2 ^ d.k ∧ s.qm.done = [(BitVec.ofNat 18 q, r)] ∧ r.after = .nothing ∧ r.ready ≤ s.cclk ∧ s.qm.staged = []) ∧
    (∃ (s : State) (q : Nat) (d : QDesc) (j : RangeJob), Calm s ∧ s.searches = [] ∧ q < 2 ^ 18 ∧ qDesc s q = d ∧ d.wr < 2 ^ (d.k + 1) ∧ d.rd
        < 2 ^ (d.k + 1) ∧ 2 ≤ d.k ∧ d.k ≤ 16 ∧ d.base + 2 ^ d.k ≤ 2 ^ 20 ∧ getReg s (0x70108 + d.cls * 0x10) = 0 ∧ d.cAt < s.cclk ∧
        d.pAt < s.cclk ∧ depth d ≤ 2 ^ d.k ∧ s.qm.range = some j ∧ j.next = q ∧ j.last = q ∧ j.cmd.wq = none ∧ d.enable = false ∧
        j.desc.enable = true) ∧
    (∃ (s : State) (q : Nat) (n : Nat) (d : QDesc) (x : Staged) (r : List Staged), Calm s ∧ s.searches = [] ∧ q < 2 ^ 18 ∧ qDesc s q = d ∧
        d.wr < 2 ^ (d.k + 1) ∧ d.rd = d.wr ∧ d.k ≤ 16 ∧ d.base + 2 ^ d.k ≤ 2 ^ 20 ∧ d.cls < 16 ∧ d.cAt < s.cclk ∧ d.pAt < s.cclk ∧
        s.qm.staged = x :: r ∧ x.q.toNat = q ∧ x.tries = 0 ∧ d.enable = true ∧ d.work = false ∧ d.items = 1 ∧ 2 ≤ d.k ∧ n = max (x.at_ +
        1) s.qm.evFree ∧ s.cclk ≤ n ∧ regB s (0x70108 + d.cls * 0x10) 25 = false ∧ regB s (0x70108 + d.cls * 0x10) 26 = false) := by
  refine ⟨⟨{ table with qm := { desc := [(5, { base := 64, k := 4, wr := 5, rd := 3 })], staged := [{ ev := { type := 0x51, source := 0, w1 := 77 }, q := 5, at_ := 99 }] } },
      5, { base := 64, k := 4, wr := 5, rd := 3 }, ({ ev := { type := 0x51, source := 0, w1 := 77 }, q := 5, at_ := 99 } : Staged), [],
      100, calm_of ?_, ?_, ?_, ?_, ?_, ?_, ?_, ?_, ?_, ?_, ?_, ?_, ?_, ?_, ?_, ?_, ?_, ?_, ?_⟩,
   ⟨{ table with qm := { desc := [(5, { base := 64, k := 4, wr := 5, rd := 3, enable := false })], staged := [{ ev := { type := 0x51, source := 0, w1 := 77 }, q := 5, at_ := 99 }] } },
      5, { base := 64, k := 4, wr := 5, rd := 3, enable := false },
      ({ ev := { type := 0x51, source := 0, w1 := 77 }, q := 5, at_ := 99 } : Staged), [], calm_of ?_, ?_, ?_, ?_, ?_, ?_, ?_, ?_, ?_,
      ?_, ?_, ?_, ?_, ?_, ?_, ?_⟩,
   ⟨{ table with qm := { desc := [(5, { base := 64, k := 4, wr := 5, rd := 3 })], spill := [⟨{ type := 0x51, source := 0, w1 := 77 }, 5, 1, 90⟩] } },
      5, { base := 64, k := 4, wr := 5, rd := 3 }, (⟨{ type := 0x51, source := 0, w1 := 77 }, 5, 1, 90⟩ : SpillItem), [], calm_of ?_,
      ?_, ?_, ?_, ?_, ?_, ?_, ?_, ?_, ?_, ?_, ?_, ?_, ?_⟩,
   ⟨{ table with qm := { desc := [(5, { work := true, base := 64, k := 4, wr := 5, rd := 3 })], held := [{ cmd := { op := 0x39, p := pk }, q := 5, item := [0x3000000000000000, 0x2800000000000003], due := 140 }] } },
      5, { work := true, base := 64, k := 4, wr := 5, rd := 3 },
      ({ cmd := { op := 0x39, p := pk }, q := 5, item := [0x3000000000000000, 0x2800000000000003], due := 140 } : HeldPush), calm_of ?_,
      ?_, ?_, ?_, ?_, ?_, ?_, ?_, ?_, ?_, ?_, ?_, ?_, ?_, ?_, ?_⟩,
   ⟨{ table with qm := { desc := [(5, { work := true, base := 64, k := 2, wr := 5, rd := 1 })], held := [{ cmd := { op := 0x39, p := pk }, q := 5, item := [0x3000000000000000, 0x2800000000000003], due := 140 }] } },
      5, { work := true, base := 64, k := 2, wr := 5, rd := 1 },
      ({ cmd := { op := 0x39, p := pk }, q := 5, item := [0x3000000000000000, 0x2800000000000003], due := 140 } : HeldPush), calm_of ?_,
      ?_, ?_, ?_, ?_, ?_, ?_, ?_, ?_, ?_, ?_, ?_, ?_, ?_, ?_⟩,
   ⟨{ table with qm := { desc := [(5, { base := 64, k := 4, wr := 5, rd := 3 })], done := [(5, { ap := 0, op := 0x28, status := 0, tag := 3, info := 9, pay := [1, 2], id := 3, ready := 90 })] } },
      5, { base := 64, k := 4, wr := 5, rd := 3 },
      { ap := 0, op := 0x28, status := 0, tag := 3, info := 9, pay := [1, 2], id := 3, ready := 90 }, calm_of ?_, ?_, ?_, ?_, ?_, ?_,
      ?_, ?_, ?_, ?_, ?_, ?_, ?_, ?_⟩,
   ⟨{ table with qm := { desc := [(5, { enable := false, base := 64, spilled := true })], range := some { cmd := { op := 0x38, p := pk }, next := 5, last := 5, desc := { base := 128, k := 3 }, step := 0 } } },
      5, { enable := false, base := 64, spilled := true },
      { cmd := { op := 0x38, p := pk }, next := 5, last := 5, desc := { base := 128, k := 3 }, step := 0 }, calm_of ?_, ?_, ?_, ?_, ?_,
      ?_, ?_, ?_, ?_, ?_, ?_, ?_, ?_, ?_, ?_, ?_⟩,
   ⟨regs [(0x70128, 0x48000000), (0x70120, 14), (0x70124, 0)]
      ({ table with qm := { desc := [(5, { base := 64, k := 4, wr := 5, rd := 5, cls := 2, slEn := true, sluice := 3 })], staged := [{ ev := { type := 0x51, source := 0, w1 := 77 }, q := 5, at_ := 99 }] } }),
      5, 100, { base := 64, k := 4, wr := 5, rd := 5, cls := 2, slEn := true, sluice := 3 },
      ({ ev := { type := 0x51, source := 0, w1 := 77 }, q := 5, at_ := 99 } : Staged), [], calm_of ?_, ?_, ?_, ?_, ?_, ?_, ?_, ?_, ?_,
      ?_, ?_, ?_, ?_, ?_, ?_, ?_, ?_, ?_, ?_⟩⟩ <;> decide +kernel

/-- Witnesses for `Obligations.WorkReleased`. -/
theorem wit_WorkReleased :
    (∃ (s : State) (q : Nat) (p : Nat) (c : Chn) (d : QDesc) (w0 : Word) (h : Word), Serving s ∧ q < 2 ^ 18 ∧ p < 64 ∧ qDesc s q = d ∧
        d.enable = true ∧ d.work = true ∧ d.wr < 2 ^ (d.k + 1) ∧ d.rd < 2 ^ (d.k + 1) ∧ d.k ≤ 16 ∧ d.base + 2 ^ d.k ≤ 2 ^ 20 ∧ getReg s
        (0x70108 + d.cls * 0x10) = 0 ∧ d.cAt < s.cclk ∧ 2 ≤ depth d ∧ depth d ≤ 2 ^ d.k ∧ s.qm.heads = [(q, none)] ∧ mgetD s.qm.relAt q
        0 ≤ s.cclk ∧ rawWord s (qAddr d d.rd) = some (encode w0) ∧ rawWord s (qAddr d (d.rd + 1)) = some (encode h) ∧ w0 = pack 64 [(1,
        63, 61), (2, 60, 59)] ∧ h = pack 64 [(0x28, 63, 56), (c.val * 64 + p, 23, 0)] ∧ leadOf s c = c ∧ cfgOn (cfgOf s c p) = true ∧
        ownerBars s c p d.ap = false ∧ (partOf s c p).st = .steady ∧ washing s c = false ∧ inCopy s c = false ∧ (chan s c).resetting =
        none ∧ (chan s c).upd.job = none ∧ (chan s c).upd.takeAt ≤ s.cclk ∧ s.qm.relAny ≤ s.cclk) := by
  refine ⟨mem [(queueBase + 67, pack 64 [(1, 63, 61), (2, 60, 59)]), (queueBase + 68, pack 64 [(0x28, 63, 56), (3, 23, 0)])]
    ({ table with qm := { desc := [(5, { work := true, base := 64, k := 4, wr := 5, rd := 3, ap := 2 })], heads := [(5, none)] } }), 5,
    3, 0, { work := true, base := 64, k := 4, wr := 5, rd := 3, ap := 2 }, pack 64 [(1, 63, 61), (2, 60, 59)], pack 64 [(0x28, 63, 56),
    (3, 23, 0)], serving_of ?_, ?_, ?_, ?_, ?_, ?_, ?_, ?_, ?_, ?_, ?_, ?_, ?_, ?_, ?_, ?_, ?_, ?_, ?_, ?_, ?_, ?_, ?_, ?_, ?_, ?_, ?_⟩ <;> decide +kernel

/-- Witnesses for `Obligations.BufferCommands`. -/
theorem wit_BufferCommands :
    (∃ (p : Pkt) (s : State) (len : Nat) (next : Nat), Serving s ∧ GoodHead 0x40 p ∧ p.pay = [] ∧ p.arg = BitVec.ofNat 24 len ∧ 1 ≤ len ∧
        len ≤ 128 ∧ copiesDue s = [] ∧ s.pool.rebuild = false ∧ 0 < availLo s s.cclk ∧ (s.pool.lo.n = 1 ∧ next = 0 ∨ 1 < s.pool.lo.n ∧
        next < 2 ^ 15 ∧ rawWord s (bufWord s.pool.lo.head 0) = some (encode (BitVec.ofNat 64 next)))) ∧
    (∃ (p : Pkt) (s : State) (len : Nat) (a : Nat) (b : Nat) (c : Nat) (fill : Bool) (two : Bool), Serving s ∧ GoodHead 0x40 p ∧ 1 ≤ len ∧
        len ≤ 256 ∧ two = decide (128 < len) ∧ p.arg = BitVec.ofNat 24 (len + if fill then 2 ^ 9 else 0) ∧ p.pay.length = (if fill then
        lenWords len else 0) ∧ (fill = true → tailClear len p.pay = true) ∧ copiesDue s = [] ∧ s.pool.rebuild = false ∧ 2 ≤ availLo s
        s.cclk ∧ 3 ≤ s.pool.lo.n ∧ a = s.pool.lo.head ∧ a < 2 ^ 14 ∧ b < 2 ^ 14 ∧ c < 2 ^ 14 ∧ a ≠ b ∧ rawWord s (bufWord a 0) = some
        (encode (BitVec.ofNat 64 b)) ∧ rawWord s (bufWord b 0) = some (encode (BitVec.ofNat 64 c))) ∧
    (∃ (p : Pkt) (s : State) (b : Nat) (first : Nat), Serving s ∧ copiesDue s = [] ∧ b < 2 ^ 15 ∧ (bufTag s b).head = true ∧ holds s b p.ap
        = true ∧ GoodHead 0x43 p ∧ p.arg = BitVec.ofNat 24 (first * 2 ^ 15 + b) ∧ p.pay ≠ [] ∧ first + p.pay.length ≤ lenWords (bufTag s
        b).len ∧ lenWords (bufTag s b).len ≤ 32 ∧ (first + p.pay.length = lenWords (bufTag s b).len → tailClear (bufTag s b).len
        (List.replicate first 0 ++ p.pay) = true)) ∧
    (∃ (p : Pkt) (s : State) (b : Nat) (ws : List Word), Serving s ∧ copiesDue s = [] ∧ b < 2 ^ 15 ∧ (bufTag s b).head = true ∧ holds s b
        p.ap = true ∧ GoodHead 0x44 p ∧ p.arg = BitVec.ofNat 24 b ∧ p.pay = [] ∧ ws.length = lenWords (bufTag s b).len ∧ (∀ k (h : k <
        ws.length), rawWord s (snipWord s b k) = some (encode ws[k]))) ∧
    (∃ (p : Pkt) (s : State) (b : Nat), Serving s ∧ copiesDue s = [] ∧ p.arg = BitVec.ofNat 24 b ∧ b < 2 ^ 15 ∧ (bufTag s b).head = true ∧
        holds s b p.ap = true ∧ GoodHead 0x41 p ∧ (∃ w : Word, p.pay = [w] ∧ 1 ≤ w.toNat ∧ w.toNat < 512 ∧ (bufTag s b).count + (bitsOf
        (BitVec.ofNat 16 w.toNat)).length ≤ 255)) ∧
    (∃ (p : Pkt) (s : State) (b : Nat), Serving s ∧ copiesDue s = [] ∧ p.arg = BitVec.ofNat 24 b ∧ b < 2 ^ 15 ∧ (bufTag s b).head = true ∧
        holds s b p.ap = true ∧ GoodHead 0x42 p ∧ p.pay = [] ∧ 1 ≤ (bufTag s b).count ∧ (bufTag s b).walks ≠ (bufTag s b).count) ∧
    (∃ (p : Pkt) (s : State) (b : Nat), Serving s ∧ GoodHead 0x42 p ∧ p.pay = [] ∧ copiesDue s = [] ∧ p.arg = BitVec.ofNat 24 b ∧ b < 2 ^ 15
        ∧ (bufTag s b).count = 0) := by
  refine ⟨⟨{ pk with arg := 60 }, mem [(bufWord 8 0, 9)]
      ({ table with pool := { tags := [(7, { count := 1, holders := 1, len := 24, head := true })], lo := ⟨8, 16383, 16376⟩ } }), 60, 9,
      serving_of ?_, head_of ?_, ?_, ?_, ?_, ?_, ?_⟩,
   ⟨{ pk with arg := 648, pay := List.replicate 17 3 }, mem [(bufWord 8 0, 9), (bufWord 9 0, 10)]
      { table with pool := { lo := ⟨8, 16383, 100⟩ } }, 136, 8, 9, 10, true, true, serving_of ?_, head_of ?_, ?_, ?_, ?_, ?_, ?_, ?_,
      ?_, ?_, ?_, ?_, ?_, ?_, ?_, ?_⟩,
   ⟨{ pk with arg := 0x8007, pay := [5] },
      { table with pool := { tags := [(7, { count := 1, holders := 1, len := 24, head := true })], lo := ⟨8, 16383, 16376⟩ } }, 7, 1,
      serving_of ?_, ?_, ?_, ?_, ?_, head_of ?_, ?_, ?_⟩,
   ⟨{ pk with arg := 7 }, mem ((List.range 3).map fun i => (bufWord 7 i, BitVec.ofNat 64 (i + 3)))
      ({ table with pool := { tags := [(7, { count := 1, holders := 1, len := 24, head := true })], lo := ⟨8, 16383, 16376⟩ } }), 7, [3,
      4, 5], serving_of ?_, ?_, ?_, ?_, ?_, head_of ?_, ?_⟩,
   ⟨{ pk with arg := 7, pay := [6] },
      { table with pool := { tags := [(7, { count := 1, holders := 1, len := 24, head := true })], lo := ⟨8, 16383, 16376⟩ } }, 7,
      serving_of ?_, ?_, ?_, ?_, ?_, ?_, head_of ?_, ⟨6, ?_⟩⟩,
   ⟨{ pk with arg := 7 },
      { table with pool := { tags := [(7, { count := 1, holders := 1, len := 24, head := true })], lo := ⟨8, 16383, 16376⟩ } }, 7,
      serving_of ?_, ?_, ?_, ?_, ?_, ?_, head_of ?_, ?_⟩,
   ⟨{ pk with arg := 8 },
      { table with pool := { tags := [(7, { count := 1, holders := 1, len := 24, head := true })], lo := ⟨8, 16383, 16376⟩ } }, 8,
      serving_of ?_, head_of ?_, ?_, ?_⟩⟩ <;> decide +kernel

/-- Witnesses for `Obligations.ByteCode`. -/
theorem wit_ByteCode :
    (∃ (i : Fin 13) (j : Fin 13) (x : BitVec 13), i ≠ j ∧ x = BitVec.ofNat 13 (2 ^ i.val) ^^^ BitVec.ofNat 13 (2 ^ j.val)) := by
  refine ⟨3, 5, 40, ?_⟩ <;> decide +kernel

/-- Witnesses for `Obligations.MemReadWrite`. -/
theorem wit_MemReadWrite :
    (∃ (p : Pkt) (s : State) (a : Nat) (n : Nat), FwReady s ∧ p.arg = 0 ∧ a < 2 ^ 32 ∧ a % 8 = 0 ∧ 1 ≤ n ∧ n ≤ 255 ∧ (∀ i < n, memId (a / 8
        + i) ≠ none ∧ asleep s (a / 8 + i) = false ∧ lentWord s (a / 8 + i) = false) ∧ GoodHead 0x4A p ∧ p.pay = [BitVec.ofNat 64 (n * 2
        ^ 32 + a)] ∧ (∀ i < n, rgnAllows s p.ap (pageOf (a / 8 + i)) false = true) ∧ ¬ Roomy 0x4A p s) ∧
    (∃ (p : Pkt) (s : State) (a : Nat) (n : Nat) (ws : List Word), FwReady s ∧ p.arg = 0 ∧ a < 2 ^ 32 ∧ a % 8 = 0 ∧ 1 ≤ n ∧ n ≤ 255 ∧ (∀ i <
        n, memId (a / 8 + i) ≠ none ∧ asleep s (a / 8 + i) = false ∧ lentWord s (a / 8 + i) = false) ∧ GoodHead 0x4A p ∧ p.pay =
        [BitVec.ofNat 64 (n * 2 ^ 32 + a)] ∧ (∀ i < n, rgnAllows s p.ap (pageOf (a / 8 + i)) false = true) ∧ Roomy 0x4A p s ∧ ws.length
        = n ∧ (∀ k < n, ∃ v, ws[k]? = some v ∧ rawWord s (a / 8 + k) = some (encode v))) ∧
    (∃ (p : Pkt) (s : State) (a : Nat) (n : Nat) (be : Byte) (ws : List Word), FwReady s ∧ p.arg = 0 ∧ a < 2 ^ 32 ∧ a % 8 = 0 ∧ 1 ≤ n ∧ n ≤
        255 ∧ (∀ i < n, memId (a / 8 + i) ≠ none ∧ asleep s (a / 8 + i) = false ∧ lentWord s (a / 8 + i) = false) ∧ GoodHead 0x4B p ∧ be
        ≠ 0 ∧ ws.length = n ∧ p.pay = BitVec.ofNat 64 (be.toNat * 2 ^ 40 + a) :: ws ∧ (∀ i < n, rgnAllows s p.ap (pageOf (a / 8 + i))
        true = true ∧ memId (a / 8 + i) ≠ some 6 ∧ memId (a / 8 + i) ≠ some 9)) ∧
    (∃ (p : Pkt) (s : State) (a : Nat), FwReady s ∧ GoodHead 0x4A p ∧ p.arg = 0 ∧ a < 2 ^ 32 ∧ a % 8 = 0 ∧ memId (a / 8) ≠ none ∧ p.pay =
        [BitVec.ofNat 64 (2 ^ 32 + a)] ∧ rgnAllows s p.ap (pageOf (a / 8)) false = false) := by
  refine ⟨⟨{ pk with pay := [0xFF00001000] },
      { regs [(0x31000, 0xF), (0x31004, 0xFFFFF000)] table with replies := List.replicate 80 { ap := 0, op := 0, status := 0, tag := 0, info := 0, pay := List.replicate 200 0, id := 1, ready := 0 } },
      0x1000, 255, ready_of ?_, ?_, ?_, ?_, ?_, ?_, ?_, head_of ?_, ?_, ?_, tight_of ?_⟩,
   ⟨{ pk with pay := [0x200001000] }, mem ((List.range 2).map fun i => (0x200 + i, BitVec.ofNat 64 (i + 3))) (regs [(0x31000, 0xF),
      (0x31004, 0xFFFFF000)] table), 0x1000, 2, [3, 4], ready_of ?_, ?_, ?_, ?_, ?_, ?_, ?_, head_of ?_, ?_, ?_, roomy_of ?_, ?_,
      (fun k h => match k, h with | 0, _ => ⟨3, ?_⟩ | 1, _ => ⟨4, ?_⟩ | k + 2, h => absurd h (by omega))⟩,
   ⟨{ pk with pay := [0xF0000001000, 7, 8] }, mem ((List.range 2).map fun i => (0x200 + i, BitVec.ofNat 64 (i + 3))) (regs [(0x31000, 0xF),
      (0x31004, 0xFFFFF000)] table), 0x1000, 2, 0xF, [7, 8], ready_of ?_, ?_, ?_, ?_, ?_, ?_, ?_, head_of ?_, ?_⟩,
   ⟨{ pk with pay := [0x100001000] }, regs [(0x31000, 0), (0x31004, 0), (0x30000, 1)] base, 0x1000, ready_of ?_, head_of ?_, ?_, ?_, ?_⟩⟩ <;> decide +kernel

/-- Witnesses for `Obligations.RawReadWrite`. -/
theorem wit_RawReadWrite :
    (∃ (p : Pkt) (s : State) (a : Nat) (n : Nat), FwReady s ∧ regB s 0x80000 31 = true ∧ p.arg = 0 ∧ a < 2 ^ 32 ∧ a % 8 = 0 ∧ 1 ≤ n ∧ n ≤
        127 ∧ (∀ i < n, memId (a / 8 + i) ≠ none ∧ asleep s (a / 8 + i) = false ∧ lentWord s (a / 8 + i) = false) ∧ GoodHead 0x4C p ∧
        Roomy 0x4C p s ∧ p.pay = [BitVec.ofNat 64 (n * 2 ^ 32 + a)] ∧ (∀ i < n, rgnAllows s p.ap (pageOf (a / 8 + i)) false = true)) ∧
    (∃ (p : Pkt) (s : State) (a : Nat) (n : Nat) (l : List SWord), FwReady s ∧ regB s 0x80000 31 = true ∧ p.arg = 0 ∧ a < 2 ^ 32 ∧ a % 8 = 0
        ∧ 1 ≤ n ∧ n ≤ 127 ∧ (∀ i < n, memId (a / 8 + i) ≠ none ∧ asleep s (a / 8 + i) = false ∧ lentWord s (a / 8 + i) = false) ∧
        GoodHead 0x4D p ∧ l.length = n ∧ p.pay = BitVec.ofNat 64 a :: l.flatMap (fun x => [x.data, x.chk.setWidth 64]) ∧ (∀ i < n,
        rgnAllows s p.ap (pageOf (a / 8 + i)) true = true ∧ memId (a / 8 + i) ≠ some 6 ∧ memId (a / 8 + i) ≠ some 9)) ∧
    (∃ (p : Pkt) (s : State) (c : Chn) (part : Nat) (e : Nat) (seg : Nat) (pos : Nat) (w : Word) (r : Row), FwReady s ∧ regB s 0x80000 31 =
        true ∧ p.arg = BitVec.ofNat 24 (2 ^ 22) ∧ part < 64 ∧ e < 2 ^ 20 ∧ seg < 8 ∧ GoodHead 0x4C p ∧ p.pay = [BitVec.ofNat 64 (c.val *
        2 ^ 62 + part * 2 ^ 56 + e * 2 ^ 36 + seg * 2 ^ 33)] ∧ w = cfgOf s c part ∧ groupOf s c = [c] ∧ isLead s c = true ∧ ownerBars s
        c part p.ap = false ∧ cfgOn w = true ∧ e < cfgEntries w ∧ seg < cfgG w ∧ posOf s c part (e / perBlock w) = some pos ∧ r = rowAt
        (chan s c) (servePhys (chan s c) pos) (rowOf w e + seg)) ∧
    (∃ (p : Pkt) (s : State) (c : Chn) (part : Nat) (e : Nat) (seg : Nat), FwReady s ∧ regB s 0x80000 31 = true ∧ p.arg = BitVec.ofNat 24 (2
        ^ 22) ∧ part < 64 ∧ e < 2 ^ 20 ∧ seg < 8 ∧ GoodHead 0x4D p ∧ payW (cmdOf 0x4D p s) 0 = BitVec.ofNat 64 (c.val * 2 ^ 62 + part *
        2 ^ 56 + e * 2 ^ 36 + seg * 2 ^ 33)) ∧
    (∃ (c : Chn) (l : Chn) (s : State) (cmd : Cmd) (p : Nat) (e : Nat) (pos : Nat) (seg : Nat) (w : Word) (row : Row), Calm s ∧ Settled s ∧
        l = leadOf s c ∧ groupOf s l = [l] ∧ w = cfgOf s l p ∧ cfgSlice w = false ∧ posOf s l p (e / perBlock w) = some pos ∧ (chan s
        l).proof = none ∧ (chan s l).corr = [] ∧ (chan s l).upd.job = some { cmd := cmd, steps := [.raw p e seg row], entry := 0 } ∧
        (chan s l).upd.nextAt ≤ s.cclk ∧ stepFree s l (.raw p e seg row) s.cclk = true ∧ isActive s l = true ∧ cmd.wq = none ∧ cmd.op =
        0x4D ∧ seg < cfgG w ∧ rowOf w e + cfgG w ≤ 8192) := by
  refine ⟨⟨{ pk with pay := [0x200001000] }, mem ((List.range 2).map fun i => (0x200 + i, BitVec.ofNat 64 (i + 3))) (regs [(0x80000, 0x80000000)]
      (regs [(0x31000, 0xF), (0x31004, 0xFFFFF000)] table)), 0x1000, 2, ready_of ?_, ?_, ?_, ?_, ?_, ?_, ?_, ?_, head_of ?_, roomy_of
      ?_, ?_⟩,
   ⟨{ pk with pay := [0x1000, 5, 6, 7, 8] }, mem ((List.range 2).map fun i => (0x200 + i, BitVec.ofNat 64 (i + 3))) (regs [(0x80000,
      0x80000000)] (regs [(0x31000, 0xF), (0x31004, 0xFFFFF000)] table)), 0x1000, 2, [{ data := 5, chk := 6 }, { data := 7, chk := 8 }],
      ready_of ?_, ?_, ?_, ?_, ?_, ?_, ?_, ?_, head_of ?_, ?_⟩,
   ⟨{ pk with arg := 0x400000, pay := [BitVec.ofNat 64 (0 * 2 ^ 62 + 3 * 2 ^ 56 + 40 * 2 ^ 36 + 0 * 2 ^ 33)] }, ch0 (fun k =>
      { k with rows := [(40, freshRow 5 0xff 8)] }) (mem ((List.range 2).map fun i => (0x200 + i, BitVec.ofNat 64 (i + 3))) (regs
      [(0x80000, 0x80000000)] (regs [(0x31000, 0xF), (0x31004, 0xFFFFF000)] table))), 0, 3, 40, 0, 0, cfgOf table 0 3, freshRow 5 0xff
      8, ready_of ?_, ?_, ?_, ?_, ?_, ?_, head_of ?_, ?_, ?_, ?_, ?_, ?_, ?_, ?_⟩,
   ⟨{ pk with arg := 0x400000, pay := [BitVec.ofNat 64 (0 * 2 ^ 62 + 3 * 2 ^ 56 + 40 * 2 ^ 36 + 0 * 2 ^ 33), 1, 2, 3, 4, 5] }, ch0 (fun k
      => { k with rows := [(40, freshRow 5 0xff 8)] }) (mem ((List.range 2).map fun i => (0x200 + i, BitVec.ofNat 64 (i + 3))) (regs
      [(0x80000, 0x80000000)] (regs [(0x31000, 0xF), (0x31004, 0xFFFFF000)] table))), 0, 3, 40, 0, ready_of ?_, ?_, ?_, ?_, ?_, ?_,
      head_of ?_, ?_⟩,
   ⟨0, 0, ch0 (fun k =>
      { k with rows := [(40, freshRow 5 0xff 8)], upd := { job := some { cmd := { op := 0x4D, p := pk }, steps := [.raw 3 40 0 (freshRow 7 0xff 8)], entry := 0 }, nextAt := 80 } })
      table, { op := 0x4D, p := pk }, 3, 40, 0, 0, cfgOf table 0 3, freshRow 7 0xff 8, calm_of ?_, settled_of ?_, ?_, ?_, ?_, ?_, ?_,
      ?_, ?_, ?_, ?_, ?_, ?_, ?_⟩⟩ <;> decide +kernel

/-- Witnesses for `Obligations.MemoryUpkeep`. -/
theorem wit_MemoryUpkeep :
    (∃ (s : State) (w : Nat) (rest : List Nat) (x : SWord), Calm s ∧ s.healQ = w :: rest ∧ w < 0x1000000 ∧ asleep s w = false ∧ mget s.sram
        w = some x) ∧
    (∃ (s : State) (c : Cmd) (w : Nat) (v : Word) (p : SramProof), Calm s ∧ s.searches = [] ∧ s.lentWait = [c] ∧ s.sramProof = some p ∧
        p.attempts < 3 ∧ c.wq = none ∧ c.op = 0x4A ∧ c.p.arg = 0 ∧ w < 2 ^ 29 ∧ c.p.pay = [BitVec.ofNat 64 (2 ^ 32 + 8 * w)] ∧ memId w ≠
        none ∧ asleep s w = false ∧ rgnAllows s c.p.ap (pageOf w) false = true ∧ rawWord s w = some (encode v)) ∧
    (∃ (s : State) (c : Cmd) (m : Nat) (row : Nat) (loc : Nat) (rest : List RemapRun), Calm s ∧ s.remapRun = ⟨some c, m, row, loc⟩ :: rest ∧
        8 ≤ m ∧ c.wq = none ∧ s.searches = []) ∧
    (∃ (s : State), Calm s ∧ s.pool.rebuild = true) := by
  refine ⟨⟨{ mem [(9, 5), (10, 6)] base with healQ := [9, 10] }, 9, [10], encode 5, calm_of ?_, ?_⟩,
   ⟨{ mem [(0x200, 5)] (regs [(0x31000, 0xF), (0x31004, 0xFFFFF000)] table) with lentWait := [{ op := 0x4A, p := { pk with pay := [0x100001000] } }], sramProof := some { first := 1, last := 9, page := 1, attempts := 1 } },
      { op := 0x4A, p := { pk with pay := [0x100001000] } }, 0x200, 5, { first := 1, last := 9, page := 1, attempts := 1 }, calm_of ?_,
      ?_, ?_, ?_, ?_, ?_, ?_, ?_, ?_, ?_, ?_⟩,
   ⟨{ mem [(0x200, 5)] base with remapRun := [⟨some { op := 0x4A, p := { pk with pay := [0x100001000] } }, 8, 4, 0x1000⟩], sram := [(0x200, { encode 5 with data := 4 })] },
      { op := 0x4A, p := { pk with pay := [0x100001000] } }, 8, 4, 0x1000, [], calm_of ?_, ?_⟩,
   ⟨{ base with pool := { rebuild := true, tags := [(0, { count := 1, head := true, len := 9 })] } }, calm_of ?_, ?_⟩⟩ <;> decide +kernel

/-- Witnesses for `Obligations.MailboxAccess`. -/
theorem wit_MailboxAccess :
    (∃ (s : State) (x : MbxAcc), Calm s ∧ bgMode s 6 = 0 ∧ s.sramProof = none ∧ x.n = 1 ∧ mbxBarred s x = none ∧ x.who = .window ∧ x.write =
        true) ∧
    (∃ (s : State) (x : MbxAcc) (v : Word) (t : BitVec 14), Calm s ∧ bgMode s 6 = 0 ∧ s.sramProof = none ∧ x.n = 1 ∧ mbxBarred s x = none ∧
        x.who = .mem t ∧ x.write = false ∧ x.be = 0xff ∧ rawWord s (mboxBase + x.word.toNat) = some (encode v)) ∧
    (∃ (s : State) (x : MbxAcc) (t : BitVec 14), Calm s ∧ bgMode s 6 = 0 ∧ s.sramProof = none ∧ mbxBarred s x = none ∧ x.who = .mem t ∧
        x.write = true ∧ 1 ≤ x.n ∧ x.data.length = x.n ∧ x.word.toNat + x.n ≤ 32768 ∧ s.searches = [] ∧ s.ring.east.st ≠ .up ∧
        s.ring.west.st ≠ .up) ∧
    (∃ (s : State) (x : MbxAcc) (w : Nat) (t : BitVec 14), Calm s ∧ bgMode s 6 = 0 ∧ s.sramProof = none ∧ x.who = .mem t ∧ mbxBarred s x =
        some w) ∧
    (∃ (s : State) (a : MbxAcc) (b : MbxAcc) (w : Nat), Calm s ∧ bgMode s 6 = 0 ∧ s.sramProof = none ∧ a.who = .window ∧ a.n = 1 ∧ b.n = 1 ∧
        a.sideB = false ∧ b.sideB = true ∧ a.write = true ∧ a.word = b.word ∧ w = mboxBase + a.word.toNat ∧ mbxBarred s a = none ∧
        mbxBarred s b = none ∧ s.searches = [] ∧ b.who = .window ∧ b.write = true ∧ (∃ i < 8, a.be.getLsbD i = true ∧ b.be.getLsbD i =
        true ∧ lane (nth a.data 0 0) i ≠ lane (nth b.data 0 0) i) ∧ satOf s 0x20C = false) ∧
    (∃ (s : State) (a : MbxAcc) (b : MbxAcc) (w : Nat), Calm s ∧ bgMode s 6 = 0 ∧ s.sramProof = none ∧ a.who = .window ∧ a.n = 1 ∧ b.n = 1 ∧
        a.sideB = false ∧ b.sideB = true ∧ a.write = true ∧ a.word = b.word ∧ w = mboxBase + a.word.toNat ∧ mbxBarred s a = none ∧
        mbxBarred s b = none ∧ s.searches = [] ∧ b.who = .window ∧ b.write = true ∧ (∀ i < 8, a.be.getLsbD i = true → b.be.getLsbD i =
        true → lane (nth a.data 0 0) i = lane (nth b.data 0 0) i)) ∧
    (∃ (s : State) (a : MbxAcc) (b : MbxAcc) (w : Nat) (tag : BitVec 14), Calm s ∧ bgMode s 6 = 0 ∧ s.sramProof = none ∧ a.who = .window ∧
        a.n = 1 ∧ b.n = 1 ∧ a.sideB = false ∧ b.sideB = true ∧ a.write = true ∧ a.word = b.word ∧ w = mboxBase + a.word.toNat ∧
        mbxBarred s a = none ∧ mbxBarred s b = none ∧ s.searches = [] ∧ b.who = .mem tag ∧ b.write = false ∧ b.be = 0xff ∧ a.be ≠ 0) ∧
    (∃ (s : State) (sideB : Bool) (due : Nat), Calm s ∧ bgMode s 6 = 0 ∧ s.sramProof = none ∧ s.searches = [] ∧ (if sideB then s.mbx.busyB
        else s.mbx.busyA) = some due ∧ s.cclk ≤ due) := by
  refine ⟨⟨regs [(0x31000, 0xF), (0x31004, 0xFFFFF000)] table,
      { m := 0, write := true, word := 5, be := 0xff, data := [9], checked := 99, who := .window, n := 1 }, calm_of ?_, ?_, ?_, ?_⟩,
   ⟨mem [(mboxBase + 5, 77)] (regs [(0x31000, 0xF), (0x31004, 0xFFFFF000)] table),
      { m := 0, write := false, word := 5, be := 0xff, data := [], checked := 99, who := .mem 7, n := 1 }, 77, 7, calm_of ?_, ?_, ?_,
      ?_, ?_, ?_⟩,
   ⟨regs [(0x31000, 0xF), (0x31004, 0xFFFFF000)] table,
      { m := 0, write := true, word := 5, be := 0xff, data := [9], checked := 99, who := .mem 7, n := 1 }, 7, calm_of ?_, ?_, ?_, ?_,
      ?_, ?_, ?_, ?_, ?_⟩,
   ⟨regs [(0x30000, 1), (0x31000, 0), (0x31004, 0)] base,
      { m := 0, write := true, word := 5, be := 0xff, data := [9], checked := 99, who := .mem 7, n := 1 }, mboxBase + 5, 7, calm_of ?_,
      ?_⟩,
   ⟨regs [(0x31000, 0xF), (0x31004, 0xFFFFF000)] table,
      { m := 0, write := true, word := 5, be := 0xff, data := [0x1111111111111111], checked := 99, who := .window, n := 1 },
      { m := 8, write := true, word := 5, be := 0xff, data := [0x2222222222222222], checked := 99, who := .window, n := 1 }, mboxBase +
      5, calm_of ?_, ?_, ?_, ?_, ?_, ?_, ?_, ?_, ?_, ?_, ?_, ?_, ?_, ?_, ?_, ?_, ⟨0, ?_, ?_⟩, ?_⟩,
   ⟨regs [(0x31000, 0xF), (0x31004, 0xFFFFF000)] table,
      { m := 0, write := true, word := 5, be := 0xff, data := [0x1111111111111111], checked := 99, who := .window, n := 1 },
      { m := 8, write := true, word := 5, be := 0xff, data := [0x1111111111111111], checked := 99, who := .window, n := 1 }, mboxBase +
      5, calm_of ?_, ?_, ?_, ?_, ?_, ?_, ?_, ?_, ?_, ?_, ?_, ?_, ?_, ?_⟩,
   ⟨regs [(0x31000, 0xF), (0x31004, 0xFFFFF000)] table,
      { m := 0, write := true, word := 5, be := 0xff, data := [0x1111111111111111], checked := 99, who := .window, n := 1 },
      { m := 8, write := false, word := 5, be := 0xff, data := [], checked := 99, who := .mem 7, n := 1 }, mboxBase + 5, 7, calm_of ?_,
      ?_, ?_, ?_, ?_, ?_, ?_, ?_, ?_, ?_, ?_, ?_, ?_, ?_, ?_⟩,
   ⟨{ regs [(0x31000, 0xF), (0x31004, 0xFFFFF000)] table with mbx := { busyA := some 120, busyB := some 130 } }, false, 120, calm_of ?_,
      ?_, ?_⟩⟩ <;> decide +kernel

/-- Witnesses for `Obligations.MgmtReadWrite`. -/
theorem wit_MgmtReadWrite :
    (∃ (p : Pkt) (s : State) (a : Nat) (i : RegInfo), FwReady s ∧ Settled s ∧ p.arg = 0 ∧ a < 2 ^ 32 ∧ mbxAddr a = false ∧ regInfo
        s.part.grade a = some i ∧ i.kind = .fields ∧ a ≠ 0x10020 ∧ ¬(0x48000 ≤ a ∧ a < 0x48100) ∧ GoodHead 0x48 p ∧ p.pay =
        [BitVec.ofNat 64 a]) ∧
    (∃ (p : Pkt) (s : State) (a : Nat) (i : RegInfo) (v : Reg) (u : State), FwReady s ∧ Settled s ∧ p.arg = 0 ∧ a < 2 ^ 32 ∧ mbxAddr a =
        false ∧ regInfo s.part.grade a = some i ∧ i.kind = .fields ∧ a ≠ 0x10020 ∧ ¬(0x48000 ≤ a ∧ a < 0x48100) ∧ GoodHead 0x49 p ∧
        p.pay = [BitVec.ofNat 64 a, v ++ (0 : BitVec 32)] ∧ a ≠ 0x3000C ∧ regWrite .mgmt p.ap a v (takenIn p s) = (stOk, u) ∧ Calm u ∧
        u.fw.parked = [] ∧ u.cclk = s.cclk) ∧
    (∃ (p : Pkt) (s : State), FwReady s ∧ GoodHead 0x02 p ∧ Plain p) ∧
    (∃ (s : State) (op : Byte), Serving s ∧ op ∉ opcodes) := by
  refine ⟨⟨{ pk with pay := [0x90080] }, table, 0x90080, (regInfo .g12 0x90080).getD {}, ready_of ?_, settled_of ?_, ?_, ?_, ?_, ?_, ?_, ?_, ?_,
      head_of ?_, ?_⟩,
   ⟨{ pk with pay := [0x90100, 0x0120000000000000] }, table, 0x90100, (regInfo .g12 0x90100).getD {}, 0x01200000, (regWrite .mgmt 0 0x90100
      0x01200000 (checkedIn { pk with pay := [0x90100, 0x0120000000000000] } (table))).2, ready_of ?_, settled_of ?_, ?_, ?_, ?_, ?_,
      ?_, ?_, ?_, head_of ?_, ?_, ?_, ?_, calm_of ?_, ?_⟩,
   ⟨pk, base, ready_of ?_, head_of ?_, plain_of ?_⟩,
   ⟨base, 0x77, serving_of ?_, ?_⟩⟩ <;> decide +kernel

/-- Witnesses for `Obligations.RegisterWritten`. -/
theorem wit_RegisterWritten :
    (∃ (a : Reg) (v : Reg) (s : State) (x : RegInfo) (i : Instr), Calm s ∧ Settled s ∧ regInfo s.part.grade a.toNat = some x ∧ Accepted
        a.toNat v s ∧ (i = .registerWrite a v ∧ (a.toNat / 0x10000 = 1 ∧ a.toNat ≠ 0x10000 ∨ a.toNat / 0x10000 = 5 ∧ (a.toNat < 0x51000
        ∨ 0x51040 ≤ a.toNat) ∨ a.toNat / 0x10000 = 9) ∨ i = .profCtlWrite a v ∧ a.toNat / 0x10000 = 9 ∨ i = .kbTplWrite a v ∧ a.toNat /
        0x10000 = 5 ∧ a.toNat < 0x51000)) := by
  refine ⟨0x90104, 0x12345678, table, (regInfo .g12 0x90104).getD {}, .registerWrite 0x90104 0x12345678, calm_of ?_, settled_of ?_, ?_,
    accepted_of ?_, ?_⟩ <;> decide +kernel

/-- Witnesses for `Obligations.RegisterEffects`. -/
theorem wit_RegisterEffects :
    (∃ (v : Reg) (s : State) (k : Fin 16), Calm s ∧ Settled s ∧ Accepted (0x51000 + 4 * k.val) v s) ∧
    (∃ (v : Reg) (s : State) (last : Bool), Calm s ∧ Settled s ∧ Accepted (if last then 0x6000C else 0x60008) v s) ∧
    (∃ (v : Reg) (s : State), Calm s ∧ Settled s ∧ Accepted 0x60000 v s) ∧
    (∃ (v : Reg) (s : State) (n : Fin 1024), Calm s ∧ Settled s ∧ Accepted (0x64000 + 4 * n.val) v s) ∧
    (∃ (v : Reg) (s : State), Calm s ∧ Settled s ∧ Accepted 0x3000C v s) ∧
    (∃ (v : Reg) (s : State), Calm s ∧ Settled s ∧ Accepted 0x20140 v s) ∧
    (∃ (v : Reg) (s : State), Calm s ∧ Settled s ∧ Accepted 0x20150 v s) ∧
    (∃ (v : Reg) (s : State) (c : Chn), Calm s ∧ Settled s ∧ Accepted (chAddr c 0x5104) v s) ∧
    (∃ (s : State) (c : Chn), Calm s ∧ Settled s ∧ (chan s c).rebuildBusy = false ∧ Accepted (chAddr c 0x2000) (putB (getReg s (chAddr c
        0x2000)) 1 true) s) ∧
    (∃ (c : Chn) (s : State), Calm s ∧ Settled s ∧ (chan s c).rebuildBusy = true ∧ Accepted (chAddr c 0x2000) (putB (getReg s (chAddr c
        0x2000)) 1 true) s) := by
  refine ⟨⟨0x80000000, table, 3, calm_of ?_, settled_of ?_, accepted_of ?_⟩,
   ⟨900, table, true, calm_of ?_, settled_of ?_, accepted_of ?_⟩,
   ⟨0x01020014, table, calm_of ?_, settled_of ?_, accepted_of ?_⟩,
   ⟨0, table, 5, calm_of ?_, settled_of ?_, accepted_of ?_⟩,
   ⟨0x00020001, table, calm_of ?_, settled_of ?_, accepted_of ?_⟩,
   ⟨0x0001, table, calm_of ?_, settled_of ?_, accepted_of ?_⟩,
   ⟨0x80000000, table, calm_of ?_, settled_of ?_, accepted_of ?_⟩,
   ⟨9, ch0 (fun k => { k with quiesced := true }) table, 0, calm_of ?_, settled_of ?_, accepted_of ?_⟩,
   ⟨table, 0, calm_of ?_, settled_of ?_, ?_, accepted_of ?_⟩,
   ⟨0, ch0 (fun k => { k with rebuildBusy := true, rebuild := [3] }) table, calm_of ?_, settled_of ?_, ?_, accepted_of ?_⟩⟩ <;> decide +kernel

/-- Witnesses for `Obligations.LinkWrites`. -/
theorem wit_LinkWrites :
    (∃ (v : Reg) (s : State) (g : Fin 8), Calm s ∧ Settled s ∧ Accepted (pgReg g 0) v s ∧ bitAt v 29 = false) ∧
    (∃ (v : Reg) (s : State) (g : Fin 8), Calm s ∧ Settled s ∧ Accepted (pgReg g 0) (putB v 29 true) s ∧ s.pg[g].st = .up ∧ bitAt v 31 =
        regB s (pgReg g 0) 31) ∧
    (∃ (v : Reg) (s : State), Calm s ∧ Settled s ∧ Accepted 0x4A010 v s ∧ regB s 0x4A010 31 = false ∧ bitAt v 31 = true) ∧
    (∃ (v : Reg) (s : State), Calm s ∧ Settled s ∧ Accepted 0x4C000 v s ∧ bitAt v 30 = false) ∧
    (∃ (s : State), Calm s ∧ Settled s ∧ Accepted 0x4C000 (putB (getReg s 0x4C000) 30 true) s ∧ s.ring.st = .joining ∧ s.ring.wait = [] ∧
        (s.ring.east.st = .up ∨ s.ring.west.st = .up)) ∧
    (∃ (s : State), Calm s ∧ Settled s ∧ Accepted 0x4C000 (putB (getReg s 0x4C000) 30 true) s ∧ s.ring.st = .joining ∧ s.ring.wait = [] ∧
        s.ring.east.st ≠ .up ∧ s.ring.west.st ≠ .up) := by
  refine ⟨⟨0x90040000, regs [(pgReg 1 0, 0x10040000)] base, 1, calm_of ?_, settled_of ?_, accepted_of ?_, ?_⟩,
   ⟨0x90040000, { base with pg := Vector.replicate 8 { st := .up } }, 1, calm_of ?_, settled_of ?_, accepted_of ?_, ?_⟩,
   ⟨0xC9090001, base, calm_of ?_, settled_of ?_, accepted_of ?_, ?_⟩,
   ⟨0x80000300, base, calm_of ?_, settled_of ?_, accepted_of ?_, ?_⟩,
   ⟨regs [(0x4C000, 0x80000300)] { base with ring := { st := .joining, east := { st := .up, slot := 9 } } }, calm_of ?_, settled_of ?_,
      accepted_of ?_, ?_⟩,
   ⟨regs [(0x4C000, 0x80000300)] { base with ring := { st := .joining } }, calm_of ?_, settled_of ?_, accepted_of ?_, ?_⟩⟩ <;> decide +kernel

/-- Witnesses for `Obligations.RegisterRefused`. -/
theorem wit_RegisterRefused :
    (∃ (a : Reg) (v : Reg) (s : State) (x : RegInfo), Calm s ∧ regInfo s.part.grade a.toNat = some x ∧ x.kind = .fields ∧ getReg s a.toNat
        &&& x.cs ≠ v &&& x.cs) ∧
    (∃ (a : Reg) (s : State), Calm s ∧ mapped s a.toNat = false) ∧
    (∃ (a : Reg) (s : State), Calm s ∧ mapped s a.toNat = false) := by
  refine ⟨⟨0x30008, 99, base, (regInfo .g12 0x30008).getD {}, calm_of ?_, ?_⟩,
   ⟨0x30FFC, base, calm_of ?_, ?_⟩,
   ⟨0x30FFC, base, calm_of ?_, ?_⟩⟩ <;> decide +kernel

/-- Witnesses for `Obligations.RegisterReads`. -/
theorem wit_RegisterReads :
    (∃ (a : Reg) (s : State) (x : RegInfo), Calm s ∧ Settled s ∧ regInfo s.part.grade a.toNat = some x ∧ x.kind = .statLo ∧ ¬ (0x48000 ≤
        a.toNat ∧ a.toNat < 0x48100)) ∧
    (∃ (a : Reg) (s : State) (x : RegInfo) (b : _), Calm s ∧ Settled s ∧ regInfo s.part.grade a.toNat = some x ∧ x.kind = .rc b) ∧
    (∃ (a : Reg) (s : State) (x : RegInfo), Calm s ∧ Settled s ∧ regInfo s.part.grade a.toNat = some x ∧ getReg s 0x10020 = 0) := by
  refine ⟨⟨0x20030, { base with stat := [(0x20030, 0x123456789)] }, (regInfo .g12 0x20030).getD {}, calm_of ?_, settled_of ?_, ?_⟩,
   ⟨0x30C, { base with cnt := [(0x308, 4)] }, (regInfo .g12 0x30C).getD {}, 0x308, calm_of ?_, settled_of ?_, ?_⟩,
   ⟨0x10020, base, (regInfo .g12 0x10020).getD {}, calm_of ?_, settled_of ?_, ?_⟩⟩ <;> decide +kernel

/-- Witnesses for `Obligations.PowerCommands`. -/
theorem wit_PowerCommands :
    (∃ (p : Pkt) (s : State) (arr : Reg) (env : Reg) (burst : Reg) (resv : Reg) (hold : Reg), FwReady s ∧ Settled s ∧ GoodHead 0x50 p ∧
        p.arg = 0 ∧ p.pay = [arr ++ env, burst ++ resv, hold ++ (0 : BitVec 32)] ∧ hold &&& ~~~(ones 29 16 ||| ones 9 0) = 0 ∧ xpoBad
        arr.toNat env.toNat burst.toNat resv.toNat hold.toNat = false) ∧
    (∃ (p : Pkt) (s : State) (rest : Nat) (mask : Nat), FwReady s ∧ Settled s ∧ GoodHead 0x51 p ∧ rest < 4 ∧ 1 ≤ mask ∧ mask < 16 ∧ p.pay =
        [] ∧ p.arg = BitVec.ofNat 24 (mask * 2 ^ 8 + rest) ∧ (2 ≤ rest → ∀ m ∈ namedChans s mask, regB s (chAddr m 0x6000) 31 = false)) ∧
    (∃ (p : Pkt) (s : State), FwReady s ∧ Settled s ∧ GoodHead 0x51 p ∧ p.pay = [] ∧ p.arg = BitVec.ofNat 24 (2 ^ 23) ∧ regB s 0x4C000 31 =
        false ∧ (∀ m : Chn, regB s (chAddr m 0x6000) 31 = false)) := by
  refine ⟨⟨{ pk with pay := [(30000 : Reg) ++ (75000 : Reg), (2400000 : Reg) ++ (240000 : Reg), (0 : Reg) ++ (0 : BitVec 32)] }, base, 30000,
      75000, 2400000, 240000, 0, ready_of ?_, settled_of ?_, head_of ?_, ?_⟩,
   ⟨{ pk with arg := 0x502 }, base, 2, 5, ready_of ?_, settled_of ?_, head_of ?_, ?_, ?_, ?_⟩,
   ⟨{ pk with arg := 0x800000 }, base, ready_of ?_, settled_of ?_, head_of ?_, ?_⟩⟩ <;> decide +kernel

/-- Witnesses for `Obligations.ExposureBalance`. -/
theorem wit_ExposureBalance :
    (∃ (s : State), Calm s ∧ s.searches = [] ∧ s.xpo.deficit = false ∧ s.xpo.debits = [] ∧ s.xpo.refAt < s.cclk) ∧
    (∃ (s : State) (d : Nat) (e : Nat) (b : Int), Calm s ∧ s.searches = [] ∧ s.xpo.deficit = false ∧ s.xpo.debits = [(d, e)] ∧ s.cclk ≤ d ∧
        s.xpo.refAt < d ∧ b = min (regF s 0x20008 23 0 : Int) (s.xpo.bal + ((d - s.xpo.refAt) * refillEu s : Nat)) - (e : Nat)) ∧
    (∃ (s : State), Calm s ∧ s.searches = [] ∧ s.xpo.deficit = false ∧ s.xpo.debits = []) := by
  refine ⟨⟨{ base with xpo := { bal := -100, refAt := 40 } }, calm_of ?_, ?_⟩,
   ⟨{ base with xpo := { bal := 1000, refAt := 40, debits := [(110, 160)], expRem := 65500 } }, 110, 160, min (regF base 0x20008 23 0 :
      Int) (1000 + (70 * refillEu base : Nat)) - 160, calm_of ?_, ?_, ?_, ?_⟩,
   ⟨base, calm_of ?_, ?_⟩⟩ <;> decide +kernel

/-- Witnesses for `Obligations.PowerStates`. -/
theorem wit_PowerStates :
    (∃ (c : Chn) (s : State) (p : Pwr), Calm s ∧ s.searches = [] ∧ leadOf s c = c ∧ (chan s c).pwr = p ∧ p.st = .active ∧ p.entering = none
        ∧ p.waking = none ∧ p.atOnce = false ∧ holdBits s c = (false, false, false, false) ∧ 1 ≤ regF s (chAddr c 0x6000) 29 28 ∧ s.cclk
        ≤ p.since + (regF s (chAddr c 0x6000) 15 0 - p.idle)) ∧
    (∃ (c : Chn) (s : State) (p : Pwr) (x : PwrSt) (due : Nat) (cause : Nat), Calm s ∧ s.searches = [] ∧ leadOf s c = c ∧ (chan s c).pwr = p
        ∧ p.entering = some (x, due, cause) ∧ s.cclk ≤ due) ∧
    (∃ (c : Chn) (s : State) (p : Pwr) (x : PwrSt) (due : Nat) (cause : Nat), Calm s ∧ s.searches = [] ∧ leadOf s c = c ∧ (chan s c).pwr = p
        ∧ p.waking = some (x, due, cause) ∧ s.cclk ≤ due) ∧
    (∃ (c : Chn) (s : State) (p : Pwr) (w : Fin 4), Calm s ∧ s.searches = [] ∧ leadOf s c = c ∧ (chan s c).pwr = p ∧ p.open4.getLsbD w =
        false ∧ windowOn s c w = true) ∧
    (∃ (c : Chn) (s : State) (p : Pwr) (w : Fin 4), Calm s ∧ s.searches = [] ∧ leadOf s c = c ∧ (chan s c).pwr = p ∧ p.open4.getLsbD w =
        true) := by
  refine ⟨⟨0, ch0 (fun k => { k with pwr := { since := 40, idle := 10 } }) (regs [(chAddr 0 0x6000, 0x30000080)] table),
      ({ since := 40, idle := 10 } : Pwr), calm_of ?_, ?_, ?_, ?_, ?_, ?_, ?_, ?_⟩,
   ⟨0, ch0 (fun k => { k with pwr := { entering := some (.dim, 150, 0) } }) (table), ({ entering := some (.dim, 150, 0) } : Pwr), .dim,
      150, 0, calm_of ?_, ?_, ?_⟩,
   ⟨0, ch0 (fun k => { k with pwr := { st := .safelight, waking := some (.safelight, 150, 1) } }) (table),
      ({ st := .safelight, waking := some (.safelight, 150, 1) } : Pwr), .safelight, 150, 1, calm_of ?_, ?_, ?_⟩,
   ⟨0, ch0 (fun k => { k with pwr := { idle := 0 } }) (regs [(0x11000, 0x80000000), (0x11004, 1000), (chAddr 0 0x6010, 0x80000000), (chAddr
      0 0x6014, 0x10002000)] table), ({ idle := 0 } : Pwr), 0, calm_of ?_, ?_, ?_⟩,
   ⟨0, ch0 (fun k => { k with pwr := { open4 := 5 } }) (regs [(0x11000, 0x80000000), (0x11004, 1000), (chAddr 0 0x6010, 0x80000000),
      (chAddr 0 0x6014, 0x10002000)] table), ({ open4 := 5 } : Pwr), 0, calm_of ?_, ?_⟩⟩ <;> decide +kernel

/-- Witnesses for `Obligations.DeviceDarkroom`. -/
theorem wit_DeviceDarkroom :
    (∃ (s : State) (cmd : Cmd), Calm s ∧ s.dev.darkReq = some cmd ∧ cmd.wq = none ∧ darkReady s = true) ∧
    (∃ (s : State) (w : WakeSrc), s.dev.st = .darkroom ∧ regB s 0x20130 (28 + wakeBit w) = true ∧ (w = .alarm → regF s 0x20130 23 0 ≠ 0)) ∧
    (∃ (s : State), s.dev.st = .waking ∧ Calm { s with dev := { s.dev with st := .run } }) ∧
    (∃ (s : State) (g : Fin 7) (due : Nat), Calm s ∧ s.searches = [] ∧ s.bgWait = [⟨g.val, due, none⟩] ∧ s.cclk ≤ due) ∧
    (∃ (s : State) (v : BitVec 5) (want : BitVec 5) (w : BitVec 5), Calm s ∧ s.searches = [] ∧ s.pins.vid = some v ∧ want ≤ 28 ∧ w = (if
        regB s 0x20150 31 then want else s.part.vid)) ∧
    (∃ (s : State), Calm s ∧ s.pins.vid = none) := by
  refine ⟨⟨{ base with ch := Vector.replicate 4 { ready := true, pwr := { st := .darkroom } }, dev := { base.dev with darkReq := some { op := 0x51, p := { pk with arg := 0x800000 } } } },
      { op := 0x51, p := { pk with arg := 0x800000 } }, calm_of ?_, ?_⟩,
   ⟨{ base with dev := { base.dev with st := .darkroom } }, .smbus, ?_⟩,
   ⟨{ base with dev := { base.dev with st := .waking } }, ?_, calm_of ?_⟩,
   ⟨{ base with bgWait := [⟨4, 130, none⟩], bgCur := [(4, 1), (5, 1)] }, 4, 130, calm_of ?_, ?_⟩,
   ⟨base, 14, 20, if regB base 0x20150 31 then 20 else base.part.vid, calm_of ?_, ?_⟩,
   ⟨{ base with pins := { base.pins with vid := none } }, calm_of ?_, ?_⟩⟩ <;> decide +kernel

/-- Witnesses for `Obligations.Temperature`. -/
theorem wit_Temperature :
    (∃ (s : State) (hard : Nat) (warn : Nat) (h : Nat), Calm s ∧ s.searches = [] ∧ hard = regF s 0x20100 23 16 ∧ warn = regF s 0x20100 15 8
        ∧ h = regF s 0x20100 3 0) ∧
    (∃ (x : Temps) (s : State), Calm s ∧ 500 ≤ hottest x) ∧
    (∃ (s : State), Calm s ∧ s.searches = []) := by
  refine ⟨⟨base, 110, 100, 2, calm_of ?_, ?_⟩,
   ⟨⟨100, 100, 100, 504, 100, 100⟩, base, calm_of ?_, ?_⟩,
   ⟨base, calm_of ?_, ?_⟩⟩ <;> decide +kernel

/-- Witnesses for `Obligations.TimeSteered`. -/
theorem wit_TimeSteered :
    (∃ (p : Pkt) (s : State) (sec : Nat) (ns : Reg) (frac : Reg), FwReady s ∧ GoodHead 0x52 p ∧ sec < 2 ^ 48 ∧ ns.toNat < 1000000000 ∧ p.pay
        = [BitVec.ofNat 64 sec, ns ++ frac] ∧ s.tb.setPend = none ∧ pendingAny s = false ∧ p.arg = 0) ∧
    (∃ (p : Pkt) (s : State) (sec : Nat) (ns : Reg) (frac : Reg), FwReady s ∧ GoodHead 0x52 p ∧ sec < 2 ^ 48 ∧ ns.toNat < 1000000000 ∧ p.pay
        = [BitVec.ofNat 64 sec, ns ++ frac] ∧ s.tb.setPend = none ∧ pendingAny s = false ∧ p.arg = 1 ∧ s.tb.ppsLost = false) ∧
    (∃ (p : Pkt) (s : State) (v : Word), FwReady s ∧ GoodHead 0x53 p ∧ p.pay = [v] ∧ p.arg = 0 ∧ v.toInt.natAbs ≤ 1099511627) ∧
    (∃ (p : Pkt) (s : State) (v : Word), FwReady s ∧ GoodHead 0x53 p ∧ p.pay = [v] ∧ p.arg = 1 ∧ 0 ≤ (s.tb.t : Int) + v.toInt * (nsU : Nat)
        ∧ (s.tb.t : Int) + v.toInt * (nsU : Nat) < (timeRange : Nat) ∧ pendingAny s = false) ∧
    (∃ (p : Pkt) (s : State) (v : Word), FwReady s ∧ GoodHead 0x53 p ∧ p.pay = [v] ∧ p.arg = 2 ∧ v.toInt.natAbs ≤ 10000000) := by
  refine ⟨⟨{ pk with pay := [77, (5 : Reg) ++ (6 : Reg)] }, base, 77, 5, 6, ready_of ?_, head_of ?_, ?_, ?_, ?_⟩,
   ⟨{ pk with arg := 1, pay := [77, (5 : Reg) ++ (6 : Reg)] }, base, 77, 5, 6, ready_of ?_, head_of ?_, ?_, ?_, ?_, ?_⟩,
   ⟨{ pk with pay := [-3] }, base, -3, ready_of ?_, head_of ?_, ?_⟩,
   ⟨{ pk with arg := 1, pay := [-3] }, base, -3, ready_of ?_, head_of ?_, ?_, ?_⟩,
   ⟨{ pk with arg := 2, pay := [-3] }, base, -3, ready_of ?_, head_of ?_, ?_⟩⟩ <;> decide +kernel

/-- Witnesses for `Obligations.GeneratorConfigured`. -/
theorem wit_GeneratorConfigured :
    (∃ (p : Pkt) (s : State) (n : Nat) (per : Reg) (ns : Reg) (lo : Reg) (hi : BitVec 16), FwReady s ∧ Settled s ∧ GoodHead 0x54 p ∧ n < 16
        ∧ pendingOn s n = false ∧ p.arg = BitVec.ofNat 24 n ∧ p.pay = [per ++ ns, (0 : BitVec 16) ++ hi ++ lo] ∧ 1000 ≤ per.toNat ∧
        ns.toNat < 1000000000) ∧
    (∃ (p : Pkt) (s : State) (n : Nat), FwReady s ∧ Settled s ∧ GoodHead 0x54 p ∧ n < 16 ∧ pendingOn s n = false ∧ p.arg = BitVec.ofNat 24
        (n + 16) ∧ p.pay = []) := by
  refine ⟨⟨{ pk with arg := 3, pay := [(2000 : Reg) ++ (9 : Reg), 4] }, base, 3, 2000, 9, 4, 0, ready_of ?_, settled_of ?_, head_of ?_, ?_, ?_,
      ?_⟩,
   ⟨{ pk with arg := 19 }, base, 3, ready_of ?_, settled_of ?_, head_of ?_, ?_⟩⟩ <;> decide +kernel

/-- Witnesses for `Obligations.TimeBaseEvents`. -/
theorem wit_TimeBaseEvents :
    (∃ (s : State), Calm s ∧ s.searches = [] ∧ s.tb.wait = false ∧ s.tb.slewLeft ≠ 0) ∧
    (∃ (s : State), Calm s ∧ s.searches = [] ∧ s.tb.wait = false ∧ regB s 0x10000 31 = true ∧ regB s 0x10000 30 = false ∧ s.tb.setPend =
        none ∧ s.tb.lastPps = none) ∧
    (∃ (s : State), Calm s ∧ s.searches = [] ∧ s.tb.wait = false ∧ regB s 0x10000 31 = true ∧ s.tb.ppsLost = false ∧ s.tb.setPend = none ∧
        satOf s 0x10048 = false) ∧
    (∃ (s : State), Calm s ∧ s.searches = [] ∧ s.tb.wait = false ∧ regB s 0x10000 29 = true ∧ regF s 0x10000 28 24 = 0) ∧
    (∃ (s : State) (e : _), Calm s ∧ s.searches = [] ∧ s.tb.wait = false ∧ s.tb.ppsOutEnd = some e) ∧
    (∃ (s : State), Calm s ∧ s.searches = [] ∧ s.tb.wait = false) ∧
    (∃ (s : State), Calm s ∧ s.searches = [] ∧ s.tb.wait = false) ∧
    (∃ (s : State) (x : _), Calm s ∧ s.searches = [] ∧ s.tb.wait = false ∧ s.tb.setPend = some x ∧ x.cmd.wq = none) := by
  refine ⟨⟨{ base with tb := { base.tb with slewLeft := 5000000000 } }, calm_of ?_, ?_⟩,
   ⟨regs [(0x10000, 0x80000000), (0x10010, 20)] base, calm_of ?_, ?_, ?_, ?_⟩,
   ⟨regs [(0x10000, 0x80000000)] { base with tb := { base.tb with ppsRef := 5 * secU } }, calm_of ?_, ?_, ?_, ?_⟩,
   ⟨regs [(0x10000, 0x20000000)] base, calm_of ?_, ?_⟩,
   ⟨{ base with tb := { base.tb with ppsOutEnd := some (5 * secU + 9000000000000) } }, 5 * secU + 9000000000000, calm_of ?_, ?_⟩,
   ⟨base, calm_of ?_, ?_⟩,
   ⟨{ base with aon := { cLoaded := true, coarse := 8 * secU } }, calm_of ?_, ?_⟩,
   ⟨{ base with tb := { base.tb with setPend := some ⟨{ op := 0x52, p := pk }, 5, 5 * secU + 9000000000000⟩ } }, (⟨{ op := 0x52, p := pk },
      5, 5 * secU + 9000000000000⟩ : SetPend), calm_of ?_, ?_⟩⟩ <;> decide +kernel

/-- Witnesses for `Obligations.RingCells`. -/
theorem wit_RingCells :
    (∃ (s : State) (east : Bool) (k : KeyCell) (pr : Prof) (l : Chn), Calm s ∧ ringServes s = true ∧ k.origin ≠ s.dev.devId ∧ serving s
        k.origin k.slot = false ∧ secondPass s (k.origin.toNat * 512 + k.slot.toNat) east = false ∧ profDiffers s k = false ∧ pr =
        profOf s k.profile.toNat ∧ l = profLead pr ∧ leadOf s l = l ∧ lockMode s l ≠ 3 ∧ isActive s l = true ∧ (pwrOf s l).waking =
        none) ∧
    (∃ (s : State) (c : ResultCell) (q : Srch) (m : CascM) (d : Nat), Calm s ∧ ringServes s = true ∧ c.origin ≠ s.dev.devId ∧ s.ring.refuse
        = [] ∧ s.searches = [q] ∧ q.mem = some m ∧ m.origin = c.origin ∧ m.slot = c.slot ∧ q.stage = .cell d) ∧
    (∃ (s : State) (n : BitVec 9) (c : ResultCell) (q : Srch) (o : CascO) (d : Nat) (rs : List LkRes), Calm s ∧ s.searches = [q] ∧ q.mem =
        none ∧ q.cmd.wq = none ∧ q.org = some o ∧ o.slot = n ∧ o.missing = 0 ∧ q.stage = .cell d ∧ s.cclk ≤ d ∧ s.ring.back = [c] ∧
        c.slot = n ∧ c.refuse = 0 ∧ q.ctxBad = false ∧ profSe q.prof.ctl = false ∧ q.cmd.op = 0x10 ∧ rs = (q.cmp.getD []).zipIdx.map
        (fun x => mergeLk (cellLk x.2 (c.poison.getD 0) (nth c.lks x.2 ⟨0, []⟩)) x.1 x.1) ∧ poisonReport rs = none ∧ (∀ r ∈ rs, r.part =
        false)) ∧
    (∃ (s : State) (c : ResultCell), Calm s ∧ ringServes s = true ∧ c.origin = s.dev.devId ∧ s.searches = []) ∧
    (∃ (s : State) (ms : List MemberId), Calm s ∧ s.ring.st = .forming ∧ formationBack ms s = false ∧ ms.all (idFits s) = true) ∧
    (∃ (s : State) (ms : List MemberId), Calm s ∧ s.ring.st = .forming ∧ formationBack ms s = true ∧ (ms.drop 1).all (idFits s) = true) ∧
    (∃ (s : State) (reach : BitVec 8) (l : Byte), Calm s ∧ s.ring.st = .forming ∧ l = segment (reach &&& ~~~s.ring.absent) s) ∧
    (∃ (s : State), Calm s ∧ s.ring.st = .formed) ∧
    (∃ (s : State) (live : BitVec 8) (l : Byte), Calm s ∧ ringServes s = true ∧ l = segment (live &&& s.ring.live) s ∧ l ≠ s.ring.live) ∧
    (∃ (s : State) (port : Bool) (ring : Bool), Calm s ∧ s.ring.st = .joining ∧ (portOf s ring).fence = true ∧ ((!port) = ring ∨ outDir s
        (!port) = ring) ∧ (portOf s (!ring)).fence = true) ∧
    (∃ (s : State) (port : Bool) (ring : Bool) (live : Byte) (l : Byte), Calm s ∧ s.ring.st = .joining ∧ (portOf s ring).fence = true ∧
        ((!port) = ring ∨ outDir s (!port) = ring) ∧ (portOf s (!ring)).fence = false ∧ l = segment (s.ring.live ||| (portOf s
        (!ring)).heard ||| live ||| ownBit s) s) ∧
    (∃ (s : State) (port : Bool) (ring : Bool) (d : BitVec 3), Calm s ∧ ringServes s = true ∧ d ≠ s.dev.devId ∧ s.ring.live.getLsbD d.toNat
        = false ∧ (portOf s port).st = .up ∧ (portOf s (!ring)).fence = false) ∧
    (∃ (s : State) (d : Fin 8), Calm s ∧ s.ring.st ≠ .off ∧ d.val ≠ s.dev.devId.toNat) ∧
    (∃ (s : State) (east : Bool) (f : Frame) (live : Byte) (l : Byte), Calm s ∧ brxFrame east false f s = (some f, none, s) ∧ (portOf s
        east).st = .up ∧ crc24 f = f.ctl.setWidth 24 ∧ fld f.ctl 63 56 = (portOf s east).rxSeq.toNat ∧ fld f.ctl 55 48 = 0 ∧ (∀ i < 24,
        bitAt f.ctl (24 + i) = true) ∧ nth f.bytes 0 0 = 3 ∧ nth f.bytes 2 0 = live ∧ ringServes s = true ∧ l = segment (live &&&
        s.ring.live) s ∧ l ≠ s.ring.live) ∧
    (∃ (s : State), Calm s) := by
  refine ⟨⟨regs [(0x4C000, 0x80000300), (0x4C010, 4)] { table with ring := { st := .formed, live := 3, hops := 2 } }, true,
      { origin := 1, slot := 4, profile := 2, nlk := 0, stamp := 9, span := List.replicate (4 * (geoOf table 2).spanWords) 0x5A },
      profOf table 2, 0, calm_of ?_, ?_, ?_, ?_, ?_, ?_, ?_, ?_, ?_⟩,
   ⟨regs [(0x4C000, 0x80000300), (0x4C010, 4)]
      { { table with searches := [{ srch2 (.cell 149) with mem := some ⟨1, 4, true⟩, cmp := some [{ hit := true, prio := 9, entry := 4 }] }] } with ring := { st := .formed, live := 3, hops := 2 } },
      { origin := 1, slot := 4, refuse := 0, lks := [⟨5, []⟩], poison := none },
      { srch2 (.cell 149) with mem := some ⟨1, 4, true⟩, cmp := some [{ hit := true, prio := 9, entry := 4 }] }, ⟨1, 4, true⟩, 149,
      calm_of ?_, ?_, ?_, ?_, ?_, ?_⟩,
   ⟨regs [(0x4C000, 0x80000300), (0x4C010, 4)]
      { { table with searches := [{ srch2 (.cell 149) with org := some { slot := 4, f := 2, d := 4, missing := 0, east := true }, cmp := some [{ hit := true, prio := 9, entry := 4 }] }] } with ring := { st := .formed, live := 3, hops := 2, back := [{ origin := 0, slot := 4, refuse := 0, lks := [⟨5, []⟩], poison := none }] } },
      4, { origin := 0, slot := 4, refuse := 0, lks := [⟨5, []⟩], poison := none },
      { srch2 (.cell 149) with org := some { slot := 4, f := 2, d := 4, missing := 0, east := true }, cmp := some [{ hit := true, prio := 9, entry := 4 }] },
      { slot := 4, f := 2, d := 4, missing := 0, east := true }, 149,
      (({ srch2 (.cell 149) with org := some { slot := 4, f := 2, d := 4, missing := 0, east := true }, cmp := some [{ hit := true, prio := 9, entry := 4 }] }
      : Srch).cmp.getD []).zipIdx.map (fun x => mergeLk (cellLk x.2 0 (nth
      ({ origin := 0, slot := 4, refuse := 0, lks := [⟨5, []⟩], poison := none } : ResultCell).lks x.2 ⟨0, []⟩)) x.1 x.1), calm_of ?_,
      ?_, ?_, ?_, ?_, ?_, ?_, ?_, ?_, ?_, ?_, ?_, ?_, ?_, ?_⟩,
   ⟨regs [(0x4C000, 0x80000300), (0x4C010, 4)] { table with ring := { st := .formed, live := 3, hops := 2 } },
      { origin := 0, slot := 4, refuse := 0, lks := [⟨5, []⟩], poison := none }, calm_of ?_, ?_⟩,
   ⟨regs [(0x4C000, 0x80000300), (0x4C010, 4)] { table with ring := { st := .forming } }, [], calm_of ?_, ?_⟩,
   ⟨regs [(0x4C000, 0x80000300), (0x4C010, 4)] { table with ring := { st := .forming } }, [ownId (regs [(0x4C000, 0x80000300), (0x4C010,
      4)] { table with ring := { st := .forming } }), ⟨1, 1, 3⟩], calm_of ?_, ?_⟩,
   ⟨regs [(0x4C000, 0x80000300), (0x4C010, 4)] { table with ring := { st := .forming, formAt := 90 } }, 2, 3, calm_of ?_, ?_⟩,
   ⟨regs [(0x4C000, 0x80000300), (0x4C010, 4)] { table with ring := { st := .formed, live := 3, hops := 2 } }, calm_of ?_, ?_⟩,
   ⟨regs [(0x4C000, 0x80000300), (0x4C010, 4)] { table with ring := { st := .formed, live := 3, hops := 2 } }, 1, 1, calm_of ?_, ?_⟩,
   ⟨regs [(0x4C000, 0x80000300), (0x4C010, 4)]
      { table with ring := { st := .joining, east := { fence := true }, west := { fence := true } } }, false, true, calm_of ?_, ?_⟩,
   ⟨regs [(0x4C000, 0x80000300), (0x4C010, 4)]
      { table with ring := { st := .joining, east := { fence := true }, west := { fence := false } } }, false, true, 2, 3, calm_of ?_,
      ?_, ?_⟩,
   ⟨regs [(0x4C000, 0x80000300), (0x4C010, 4)]
      { table with ring := { st := .wrapped, live := 1, east := { st := .up, slot := 9, wrapped := true } } }, true, true, 1, calm_of
      ?_, ?_, ?_⟩,
   ⟨regs [(0x4C000, 0x80000300), (0x4C010, 4)] { table with ring := { st := .formed, live := 3, hops := 2 } }, 1, calm_of ?_, ?_⟩,
   ⟨regs [(0x4C000, 0x80000300), (0x4C010, 4)]
      { table with ring := { st := .formed, live := 3, hops := 2, east := { st := .up, resync := false, slot := 9 } } }, true, (let f :
      Frame := { bytes := [3, 0, 1], ctl := 0xFFFFFF000000 }; { f with ctl := f.ctl ||| (crc24 f).setWidth 64 }), 1, 1, calm_of ?_, ?_,
      ?_, ?_, ?_, ?_, ?_, ?_, ?_⟩,
   ⟨regs [(0x4C000, 0x80000300), (0x4C010, 4)] { table with ring := { st := .formed, live := 3, hops := 2 } }, calm_of ?_⟩⟩ <;> decide +kernel

/-- Witnesses for `Obligations.FlitsMove`. -/
theorem wit_FlitsMove :
    (∃ (g : Fin 8) (s : State) (f : Flit), Calm s ∧ s.pg[g].st = .up ∧ s.pg[g].tmode = false ∧ s.brx[brxN g].tx = false ∧ s.brx[brxN
        g].outFlit = none ∧ isData f = true ∧ brxFlit g false f s = (some f, none, s) ∧ crcGood f = true ∧ fld f.hdr 29 18 =
        s.pg[g].rxSeq.toNat ∧ credit (s.pg[g].flitGrant - s.pg[g].rxNum) = true ∧ s.pg[g].resync = false ∧ s.pg[g].rx = [] ∧ fld f.hdr
        14 9 = 32 ∧ 4 ≤ fld f.w0 31 24) ∧
    (∃ (g : Fin 8) (s : State) (f : Flit) (p : Pkt), Calm s ∧ s.pg[g].st = .up ∧ s.pg[g].tmode = false ∧ s.brx[brxN g].tx = false ∧
        s.brx[brxN g].outFlit = none ∧ isData f = true ∧ brxFlit g false f s = (some f, none, s) ∧ crcGood f = true ∧ fld f.hdr 29 18 =
        s.pg[g].rxSeq.toNat ∧ credit (s.pg[g].flitGrant - s.pg[g].rxNum) = true ∧ credit (s.pg[g].cmdGrant - s.pg[g].cmdNum) = true ∧
        closing s = false ∧ s.pg[g].resync = false ∧ s.pg[g].rx = [] ∧ fld f.hdr 14 9 = 8 ∧ fld f.w0 31 24 = 0 ∧ parsePkt (pgAp g) f.w0
        [] = (0x00, p) ∧ GoodHead 0x00 p ∧ Plain p) ∧
    (∃ (g : Fin 8) (s : State) (f : Flit), Calm s ∧ s.pg[g].st = .up ∧ s.pg[g].tmode = false ∧ s.brx[brxN g].tx = false ∧ s.brx[brxN
        g].outFlit = none ∧ isData f = true ∧ brxFlit g false f s = (some f, none, s) ∧ (crcGood f = false ∨ fld f.hdr 29 18 ≠
        s.pg[g].rxSeq.toNat) ∧ satOf s (pgReg g 0x10) = false) ∧
    (∃ (g : Fin 8) (s : State) (f : Flit) (f0 : Flit) (rest : List Flit) (n : Nat), Calm s ∧ s.pg[g].st = .up ∧ s.pg[g].tmode = false ∧
        s.brx[brxN g].tx = false ∧ s.brx[brxN g].outFlit = none ∧ isData f = false ∧ crcGood f = true ∧ brxFlit g false f s = (some f,
        none, s) ∧ s.pg[g].replay = f0 :: rest ∧ bitAt f.w0 19 = false ∧ n = (BitVec.ofNat 12 (fld f.w0 31 20) - BitVec.ofNat 12 (fld
        f0.hdr 29 18) + 1).toNat ∧ n ≤ rest.length + 1) ∧
    (∃ (g : Fin 8) (s : State), Calm s ∧ s.pg[g].st = .up ∧ s.pg[g].tmode = false ∧ s.brx[brxN g].tx = false ∧ s.brx[brxN g].outFlit = none) ∧
    (∃ (g : Fin 8) (s : State), Calm s ∧ s.pg[g].st = .up ∧ s.pg[g].tmode = false ∧ s.brx[brxN g].tx = false ∧ s.brx[brxN g].outFlit = none
        ∧ s.pg[g].replay ≠ [] ∧ s.pg[g].episodes < 7 ∧ s.cclk ≤ s.pg[g].ackAt + cclkPerUs s.part.grade) ∧
    (∃ (g : Fin 8) (s : State) (e : Nat) (r : Reply), Calm s ∧ s.pg[g].st = .up ∧ s.pg[g].tmode = false ∧ s.brx[brxN g].tx = false ∧
        s.brx[brxN g].outFlit = none ∧ nextReply s g = some (e, r) ∧ s.pg[g].discardTo ≤ r.id ∧ maySend s g = true ∧ r.after = .nothing
        ∧ s.cclk ≤ max e s.pg[g].txFree) ∧
    (∃ (g : Fin 8) (s : State) (a : Reply) (b : Reply), Calm s ∧ s.pg[g].st = .up ∧ s.pg[g].tmode = false ∧ s.brx[brxN g].tx = false ∧
        s.brx[brxN g].outFlit = none ∧ s.replies = [b, a] ∧ a.ap = pgAp g ∧ b.ap = pgAp g ∧ a.ord = true ∧ b.ord = true ∧ a.id < b.id ∧
        a.sent = 0 ∧ b.sent = 0 ∧ s.searches = [] ∧ s.pg[g].lastOrd = none ∧ s.pg[g].discardTo ≤ a.id ∧ maySend s g = true ∧ a.after =
        .nothing ∧ a.pay.length ≤ 3 ∧ s.cclk ≤ max a.ready s.pg[g].txFree) ∧
    (∃ (g : Fin 8) (s : State) (f : Flit) (d : Nat) (h : Word) (l : List Word), Calm s ∧ s.pg[g].st = .up ∧ s.pg[g].tmode = true ∧ isData f
        = true ∧ brxFlit g false f s = (some f, none, s) ∧ s.pg[g].resync = false ∧ satOf s (pgReg g 0x20) = false ∧ satOf s (pgReg g
        0x10) = false ∧ crcGood f = true ∧ 1 ≤ d ∧ d < 2048 ∧ BitVec.ofNat 12 (fld f.hdr 29 18) = s.pg[g].rxSeq + BitVec.ofNat 12 d ∧
        s.pg[g].rx = h :: l ∧ bitAt f.hdr 17 = false ∧ credit (s.pg[g].flitGrant - (s.pg[g].rxNum + BitVec.ofNat 16 d)) = true) ∧
    (∃ (g : Fin 8) (s : State) (f : Flit) (fec : Bool), Calm s ∧ s.pg[g].st = .up ∧ s.pg[g].tmode = true ∧ isData f = true ∧ brxFlit g false
        f s = (some f, none, s) ∧ s.pg[g].resync = false ∧ satOf s (pgReg g 0x20) = false ∧ satOf s (pgReg g 0x10) = false ∧ (fec &&
        crcGood f) = false) := by
  refine ⟨⟨1, { base with pg := Vector.replicate 8 { st := .up, rxSeq := 9, flitGrant := 8 } }, sealFlit
      { hdr := pack 32 [(9, 29, 18), (32, 14, 9)], w0 := pack 64 [(7, 31, 24)], w1 := 2, w2 := 3, w3 := 4, crc := 0 }, calm_of ?_, ?_,
      ?_, ?_, ?_, ?_, ?_, ?_, ?_, ?_, ?_⟩,
   ⟨1, { base with pg := Vector.replicate 8 { st := .up, rxSeq := 9, flitGrant := 8, cmdGrant := 5 } }, sealFlit
      { hdr := pack 32 [(9, 29, 18), (8, 14, 9)], w0 := 0x5 <<< 38, w1 := 0, w2 := 0, w3 := 0, crc := 0 }, { ap := pgAp 1, tag := 5 },
      calm_of ?_, ?_, ?_, ?_, ?_, ?_, ?_, ?_, ?_, ?_, ?_, ?_, ?_, ?_, ?_, ?_, ?_, head_of ?_, plain_of ?_⟩,
   ⟨1, { base with pg := Vector.replicate 8 { st := .up, rxSeq := 9, flitGrant := 8 } },
      { sealFlit { hdr := pack 32 [(9, 29, 18), (32, 14, 9)], w0 := pack 64 [(7, 31, 24)], w1 := 2, w2 := 3, w3 := 4, crc := 0 } with crc := 5 },
      calm_of ?_, ?_, ?_, ?_, ?_, ?_⟩,
   ⟨1,
      { base with pg := Vector.replicate 8 { st := .up, replay := [{ hdr := pack 32 [(3, 29, 18)], w0 := 1, w1 := 2, w2 := 3, w3 := 4, crc := 0 }, { hdr := pack 32 [(4, 29, 18)], w0 := 1, w1 := 2, w2 := 3, w3 := 4, crc := 0 }, { hdr := pack 32 [(5, 29, 18)], w0 := 1, w1 := 2, w2 := 3, w3 := 4, crc := 0 }] } },
      sealFlit
      { hdr := pack 32 [(1, 31, 30), (9, 29, 18)], w0 := pack 64 [(5, 47, 32), (4, 31, 20)], w1 := 0, w2 := 0, w3 := 0, crc := 0 },
      { hdr := pack 32 [(3, 29, 18)], w0 := 1, w1 := 2, w2 := 3, w3 := 4, crc := 0 },
      [{ hdr := pack 32 [(4, 29, 18)], w0 := 1, w1 := 2, w2 := 3, w3 := 4, crc := 0 },
      { hdr := pack 32 [(5, 29, 18)], w0 := 1, w1 := 2, w2 := 3, w3 := 4, crc := 0 }], 2, calm_of ?_, ?_, ?_, ?_, ?_, ?_, ?_, ?_, ?_⟩,
   ⟨1, { base with pg := Vector.replicate 8 { st := .up, rxSeq := 9, slot := 2 } }, calm_of ?_, ?_⟩,
   ⟨1,
      { base with pg := Vector.replicate 8 { st := .up, replay := [{ hdr := pack 32 [(3, 29, 18)], w0 := 1, w1 := 2, w2 := 3, w3 := 4, crc := 0 }], ackAt := 90 } },
      calm_of ?_, ?_, ?_, ?_, ?_⟩,
   ⟨1,
      { { base with pg := Vector.replicate 8 { st := .up, hostCrd := 3 } } with replies := [{ ap := 1, op := 0x00, status := 0, tag := 3, info := 9, pay := [1, 2], id := 3, ready := 106 }] },
      106, { ap := 1, op := 0x00, status := 0, tag := 3, info := 9, pay := [1, 2], id := 3, ready := 106 }, calm_of ?_, ?_, ?_, ?_, ?_,
      ?_, ?_⟩,
   ⟨1,
      { { base with pg := Vector.replicate 8 { st := .up, hostCrd := 3 } } with replies := [{ ap := pgAp 1, op := 0x10, status := 0, tag := 3, info := 9, pay := [1], id := 9, ready := 101, ord := true }, { ap := pgAp 1, op := 0x10, status := 0, tag := 3, info := 9, pay := [1], id := 5, ready := 106, ord := true }] },
      { ap := pgAp 1, op := 0x10, status := 0, tag := 3, info := 9, pay := [1], id := 5, ready := 106, ord := true },
      { ap := pgAp 1, op := 0x10, status := 0, tag := 3, info := 9, pay := [1], id := 9, ready := 101, ord := true }, calm_of ?_, ?_,
      ?_, ?_, ?_, ?_, ?_, ?_, ?_, ?_, ?_, ?_, ?_, ?_, ?_, ?_, ?_⟩,
   ⟨1, { base with pg := Vector.replicate 8 { st := .up, tmode := true, rxSeq := 9, flitGrant := 8, rx := [5] } }, sealFlit
      { hdr := pack 32 [(11, 29, 18), (32, 14, 9)], w0 := 1, w1 := 2, w2 := 3, w3 := 4, crc := 0 }, 2, 5, [], calm_of ?_, ?_, ?_, ?_,
      ?_, ?_, ?_, ?_, ?_, ?_, ?_, ?_⟩,
   ⟨1, { base with pg := Vector.replicate 8 { st := .up, tmode := true, rxSeq := 9, flitGrant := 8, rx := [5] } },
      { sealFlit { hdr := pack 32 [(11, 29, 18), (32, 14, 9)], w0 := 1, w1 := 2, w2 := 3, w3 := 4, crc := 0 } with crc := 5 }, true,
      calm_of ?_, ?_, ?_, ?_, ?_, ?_⟩⟩ <;> decide +kernel

/-- Witnesses for `Obligations.PortStates`. -/
theorem wit_PortStates :
    (∃ (g : Fin 8) (s : State) (port : Fin 10), Calm s ∧ port.val = g.val ∧ s.pg[g].st = .train ∧ s.pg[g].next = none ∧ regB s (pgReg g 0)
        28 = false) ∧
    (∃ (s : State) (port : Fin 10), Calm s ∧ port.val = 8 ∧ s.ring.east.st = .train ∧ s.ring.st ≠ .forming) ∧
    (∃ (g : Fin 8) (s : State), Calm s ∧ s.pg[g].st = .drain ∧ owes s (pgAp g) = false ∧ s.pg[g].rx = []) ∧
    (∃ (g : Fin 8) (s : State), Calm s ∧ s.pg[g].st = .up ∧ s.cclk ≤ s.pg[g].hbAt + regF s (pgReg g 0) 21 16 * cclkPerUs s.part.grade / 2 ∧
        satOf s (pgReg g 0x28) = false) ∧
    (∃ (g : Fin 8) (s : State), Calm s ∧ s.pg[g].st = .lpi) ∧
    (∃ (g : Fin 8) (s : State), Calm s ∧ s.pg[g].st = .lpi) ∧
    (∃ (g : Fin 8) (s : State), s.dev.st = .darkroom ∧ s.pg[g].st = .lpi) := by
  refine ⟨⟨1, regs [(pgReg 1 0, 0x80040000), (pgReg 1 4, 0x12000000)] ({ base with pg := Vector.replicate 8 { st := .train } }), 1, calm_of ?_,
      ?_⟩,
   ⟨{ base with ring := { st := .formed, east := { st := .train } } }, 8, calm_of ?_, ?_⟩,
   ⟨1, { base with pg := Vector.replicate 8 { st := .drain, next := some (true, 5) } }, calm_of ?_, ?_⟩,
   ⟨1,
      { { base with pg := Vector.replicate 8 { st := .up, hbAt := 90, rx := [3] } } with qm := { held := [{ cmd := { op := 0x39, p := { pk with ap := pgAp 1 } }, q := 5, item := [0x3000000000000000, 0x2800000000000003], due := 140 }] } },
      calm_of ?_, ?_⟩,
   ⟨1, { base with pg := Vector.replicate 8 { st := .lpi, eqUse := some 4 } }, calm_of ?_, ?_⟩,
   ⟨1, { base with pg := Vector.replicate 8 { st := .lpi, eqUse := some 4 } }, calm_of ?_, ?_⟩,
   ⟨1, { { base with pg := Vector.replicate 8 { st := .lpi, hb := 7 } } with dev := { base.dev with st := .darkroom } }, ?_⟩⟩ <;> decide +kernel

/-- Witnesses for `Obligations.PcieFunction`. -/
theorem wit_PcieFunction :
    (∃ (s : State), Calm s ∧ s.pcie.up = true) ∧
    (∃ (s : State) (h : Word) (p : Pkt), Calm s ∧ closing s = false ∧ fetching s = true ∧ parsePkt 8 h [] = (0x00, p) ∧ GoodHead 0x00 p ∧
        Plain p ∧ fld h 31 24 = 0 ∧ 1 ≤ sqAhead s ∧ (s.pcie.owed + 1) * 257 ≤ cqFree s) ∧
    (∃ (s : State), Calm s ∧ fetching s = true ∧ sqAhead s ≠ 0 ∧ satOf s 0x4A028 = false) ∧
    (∃ (s : State) (e : Nat) (r : Reply) (n : Nat) (w : Nat), Calm s ∧ firstReply ((s.replies.filter (·.ap == 8)).map fun r => (r.ready, r))
        = some (e, r) ∧ r.after = .nothing ∧ s.pcie.discardTo ≤ r.id ∧ regB s 0x4A010 30 = true ∧ s.cclk ≤ e ∧ n = 2 ^ regF s 0x4A010 20
        16 ∧ w = s.pcie.cqW ∧ (replyWords r).length < n) ∧
    (∃ (s : State) (v : Nat) (rest : List Nat), Calm s ∧ s.pcie.up = true ∧ s.pcie.reqs = v :: rest ∧ v < 64) ∧
    (∃ (s : State), Calm s ∧ s.pcie.up = true) ∧
    (∃ (s : State), Calm s ∧ s.pcie.up = true) ∧
    (∃ (s : State) (t0 : Nat) (due : Nat), Calm s ∧ s.pcie.oldest = some t0 ∧ regF s 0x4A014 15 0 ≠ 0 ∧ regB s 0x4A010 29 = true ∧ due = t0
        + nsToCclk s.part.grade (regF s 0x4A014 15 0) ∧ s.cclk ≤ due) ∧
    (∃ (s : State) (i : Instr) (down : Bool), Calm s ∧ (i = .functionLevelReset ∧ down = false ∨ i = .pcieLinkDown ∧ down = true)) ∧
    (∃ (s : State) (speed : BitVec 3) (width : BitVec 2), Calm s ∧ 1 ≤ speed.toNat ∧ speed.toNat ≤ 4 ∧ 1 ≤ width.toNat ∧ width.toNat ≤ 2) := by
  refine ⟨⟨regs [(0x4A010, 0xC9090001)] { base with pcie := { up := true } }, calm_of ?_, ?_⟩,
   ⟨regs [(0x4A010, 0xC9090001)] { base with pcie := { up := true, sqTail := 3, cqW := 9, cqHead := 5 } }, 0x5 <<< 38,
      { ap := 8, tag := 5 }, calm_of ?_, ?_, ?_, ?_, head_of ?_, plain_of ?_, ?_⟩,
   ⟨regs [(0x4A010, 0xC9090001)] { base with pcie := { up := true, sqTail := 3 } }, calm_of ?_, ?_⟩,
   ⟨{ regs [(0x4A010, 0xC9090001)] { base with pcie := { up := true, cqW := 9 } } with replies := [{ ap := 8, op := 0x00, status := 0, tag := 3, info := 9, pay := [1, 2], id := 3, ready := 106 }] },
      106, { ap := 8, op := 0x00, status := 0, tag := 3, info := 9, pay := [1, 2], id := 3, ready := 106 }, 512, 9, calm_of ?_, ?_, ?_,
      ?_, ?_, ?_⟩,
   ⟨regs [(0x4A010, 0xC9090001)] { base with pcie := { up := true, reqs := [5, 6] } }, 5, [6], calm_of ?_, ?_⟩,
   ⟨regs [(0x4A010, 0xC9090001)] { base with pcie := { up := true, pba := 0x20 } }, calm_of ?_, ?_⟩,
   ⟨regs [(0x4A010, 0xC9090001)] { base with pcie := { up := true, pba := 0x20 } }, calm_of ?_, ?_⟩,
   ⟨regs [(0x4A014, 700)] (regs [(0x4A010, 0xE9090001)] { base with pcie := { up := true, oldest := some 90, markers := 2 } }), 90, 90 +
      nsToCclk .g12 700, calm_of ?_, ?_, ?_⟩,
   ⟨regs [(0x4A014, 700), (0x90100, 5)] (regs [(0x4A010, 0xC9090001)]
      { base with pcie := { up := true, sqTail := 3, cqW := 9, pba := 3 } }), .functionLevelReset, false, calm_of ?_, ?_⟩,
   ⟨base, 3, 2, calm_of ?_, ?_⟩⟩ <;> decide +kernel

/-- Witnesses for `Obligations.BreachTest`. -/
theorem wit_BreachTest :
    (∃ (p : Pkt) (s : State), FwReady s ∧ GoodHead 0x70 p ∧ regB s 0x4E000 31 = false) ∧
    (∃ (p : Pkt) (s : State) (t : Nat) (action : Nat) (random : Bool) (n : Reg) (th : Reg) (lim : Reg) (x : Word), FwReady s ∧ GoodHead 0x70
        p ∧ regB s 0x4E000 31 = true ∧ t ≤ 9 ∧ action < 4 ∧ p.arg = BitVec.ofNat 24 (t * 2 ^ 20 + action * 2 ^ 17 + b2n random * 2 ^ 16)
        ∧ n ≠ 0 ∧ (random = true → th ≠ 0) ∧ p.pay = [n ++ th, x, (0 : BitVec 32) ++ lim]) ∧
    (∃ (g : Fin 8) (s : State) (e : Nat) (r : Reply) (n : Fin 10) (x : Brx), Calm s ∧ s.pg[g].st = .up ∧ s.brx[brxN g].tx = false ∧
        s.brx[brxN g].outFlit = none ∧ s.ring.east.st ≠ .up ∧ s.ring.west.st ≠ .up ∧ nextReply s g = some (e, r) ∧ s.pg[g].discardTo ≤
        r.id ∧ maySend s g = true ∧ r.after = .breach n x ∧ r.pay = [] ∧ r.sent = 0 ∧ s.cclk ≤ max e s.pg[g].txFree) ∧
    (∃ (g : Fin 8) (s : State) (f : Flit) (x : Brx) (a : Nat), Calm s ∧ s.pg[g].st = .up ∧ s.pg[g].tmode = false ∧ isData f = true ∧ x =
        s.brx[brxN g] ∧ x.tx = false ∧ x.random = false ∧ x.heldFlit = none ∧ (x.seen + 1) % max 1 x.n.toNat = 0 ∧ x.limit = 0 ∧ a =
        0x4E100 + g.val * 8 ∧ (x.action = 1 ∨ x.action = 3)) ∧
    (∃ (g : Fin 8) (s : State) (f : Flit) (x : Brx) (a : Nat), Calm s ∧ s.pg[g].st = .up ∧ s.pg[g].tmode = false ∧ isData f = true ∧ x =
        s.brx[brxN g] ∧ x.tx = false ∧ x.random = false ∧ x.heldFlit = none ∧ (x.seen + 1) % max 1 x.n.toNat = 0 ∧ x.limit = 0 ∧ a =
        0x4E100 + g.val * 8 ∧ x.action = 2 ∧ x.recrc = true ∧ fld f.hdr 29 18 = s.pg[g].rxSeq.toNat ∧ credit (s.pg[g].flitGrant -
        s.pg[g].rxNum) = true ∧ s.pg[g].resync = false ∧ s.pg[g].rx = [] ∧ fld f.hdr 14 9 = 32 ∧ 4 ≤ fld (f.w0 ^^^ x.xor) 31 24) ∧
    (∃ (t : Fin 10) (s : State), s.brx[t].random = true ∧ s.brx[t].action ≠ 0) ∧
    (∃ (t : Fin 10) (s : State), s.brx[t].random = true ∧ s.brx[t].action ≠ 0) ∧
    (∃ (t : Fin 10) (s : State) (u : Fin 10), s.brx[t].random = true ∧ s.brx[t].action ≠ 0 ∧ u ≠ t) := by
  refine ⟨⟨pk, base, ready_of ?_, head_of ?_, ?_⟩,
   ⟨{ pk with arg := 0x330000, pay := [(9 : Reg) ++ (4 : Reg), 5, 3] }, regs [(0x4E000, 0x80000000)] base, 3, 1, true, 9, 4, 3, 5, ready_of
      ?_, head_of ?_, ?_, ?_, ?_, ?_⟩,
   ⟨1,
      { regs [(0x4E000, 0x80000000)] ({ base with pg := Vector.replicate 8 { st := .up, hostCrd := 3 } }) with replies := [{ ({ ap := 1, op := 0x00, status := 0, tag := 3, info := 9, pay := [1, 2], id := 3, ready := 106 } : Reply) with pay := [], after := .breach 3 { action := 1, n := 4 } }] },
      106,
      { ({ ap := 1, op := 0x00, status := 0, tag := 3, info := 9, pay := [1, 2], id := 3, ready := 106 } : Reply) with pay := [], after := .breach 3 { action := 1, n := 4 } },
      3, { action := 1, n := 4 }, calm_of ?_, ?_, ?_, ?_, ?_, ?_, ?_, ?_, ?_, ?_⟩,
   ⟨1,
      { { base with pg := Vector.replicate 8 { st := .up, rxSeq := 9, flitGrant := 8 } } with brx := Vector.replicate 10 { action := 1, n := 4, seen := 3 } },
      sealFlit { hdr := pack 32 [(9, 29, 18), (32, 14, 9)], w0 := pack 64 [(7, 31, 24)], w1 := 2, w2 := 3, w3 := 4, crc := 0 },
      ({ action := 1, n := 4, seen := 3 } : Brx), 0x4E108, calm_of ?_, ?_, ?_, ?_, ?_, ?_, ?_, ?_, ?_⟩,
   ⟨1,
      { { base with pg := Vector.replicate 8 { st := .up, rxSeq := 9, flitGrant := 8 } } with brx := Vector.replicate 10 { action := 2, n := 4, seen := 3, recrc := true, xor := 3 } },
      sealFlit { hdr := pack 32 [(9, 29, 18), (32, 14, 9)], w0 := pack 64 [(7, 31, 24)], w1 := 2, w2 := 3, w3 := 4, crc := 0 },
      ({ action := 2, n := 4, seen := 3, recrc := true, xor := 3 } : Brx), 0x4E108, calm_of ?_, ?_, ?_, ?_, ?_, ?_, ?_, ?_, ?_, ?_, ?_,
      ?_, ?_, ?_, ?_, ?_⟩,
   ⟨3, { base with brx := Vector.replicate 10 { random := true, action := 1, n := 9, s := 9, thresh := 0x90000000 } }, ?_⟩,
   ⟨3, { base with brx := Vector.replicate 10 { random := true, action := 1, n := 9, s := 9, thresh := 0x90000000 } }, ?_⟩,
   ⟨3, { base with brx := Vector.replicate 10 { random := true, action := 1, n := 9, s := 9, thresh := 0x90000000 } }, 4, ?_⟩⟩ <;> decide +kernel

/-- Witnesses for `Obligations.FirmwareStaged`. -/
theorem wit_FirmwareStaged :
    (∃ (p : Pkt) (s : State) (off : Nat) (ws : List Word), FwReady s ∧ p.arg = 0 ∧ GoodHead 0x5E p ∧ off % 8 = 0 ∧ ws ≠ [] ∧ off + 8 *
        ws.length ≤ 2 ^ 20 ∧ p.pay = BitVec.ofNat 64 off :: ws ∧ s.sramProof = none ∧ (∀ k < ws.length, rgnAllows s 9 (pageOf (slotBase
        (!s.fw.active) + off / 8 + k)) true = true)) ∧
    (∃ (p : Pkt) (s : State), FwReady s ∧ p.arg = 0 ∧ GoodHead 0x5F p) := by
  refine ⟨⟨{ pk with pay := [64, 5, 6] }, base, 64, [5, 6], ready_of ?_, ?_, head_of ?_, ?_, ?_, ?_⟩,
   ⟨pk, base, ready_of ?_, ?_, head_of ?_⟩⟩ <;> decide +kernel

/-- Witnesses for `Obligations.SaveAndReset`. -/
theorem wit_SaveAndReset :
    (∃ (p : Pkt) (s : State), FwReady s ∧ Plain p ∧ GoodHead 0x60 p) ∧
    (∃ (p : Pkt) (s : State), FwReady s ∧ Plain p ∧ GoodHead 0x61 p) ∧
    (∃ (g : Fin 8) (s : State) (e : Nat) (r : Reply), Calm s ∧ s.pg[g].st = .up ∧ s.brx[brxN g].tx = false ∧ s.brx[brxN g].outFlit = none ∧
        nextReply s g = some (e, r) ∧ s.pg[g].discardTo ≤ r.id ∧ maySend s g = true ∧ r.after = .deviceReset ∧ r.pay = [] ∧ r.sent = 0) ∧
    (∃ (p : Pkt) (s : State) (c : Chn) (l : Chn), FwReady s ∧ Settled s ∧ GoodHead 0x61 p ∧ p.pay = [] ∧ p.arg = BitVec.ofNat 24 (2 ^ 16 +
        c.val * 2 ^ 6) ∧ l = leadOf s c) := by
  refine ⟨⟨pk, base, ready_of ?_, plain_of ?_, head_of ?_⟩,
   ⟨pk, base, ready_of ?_, plain_of ?_, head_of ?_⟩,
   ⟨1, mem [(9, 5), (0x300005, 6)]
      { { base with pg := Vector.replicate 8 { st := .up, hostCrd := 3 } } with replies := [{ ({ ap := 1, op := 0x00, status := 0, tag := 3, info := 9, pay := [1, 2], id := 3, ready := 106 } : Reply) with pay := [], after := .deviceReset }], ch := table.ch, regs := table.regs },
      106,
      { ({ ap := 1, op := 0x00, status := 0, tag := 3, info := 9, pay := [1, 2], id := 3, ready := 106 } : Reply) with pay := [], after := .deviceReset },
      calm_of ?_, ?_, ?_, ?_, ?_, ?_, ?_⟩,
   ⟨{ pk with arg := 0x10080 }, base, 2, 2, ready_of ?_, settled_of ?_, head_of ?_, ?_⟩⟩ <;> decide +kernel

/-- Witnesses for `Obligations.FirmwareEvents`. -/
theorem wit_FirmwareEvents :
    (∃ (s : State) (n : Nat) (l : List Word) (v : BitVec 16), Calm s ∧ s.fw.load = some n ∧ s.fw.startBy = none ∧ verify l = some v ∧ (∀ b :
        Bool, firstDenied s 9 (slotBase (trySlot s n)) (l.take 131072).length b = none)) ∧
    (∃ (s : State), Calm s ∧ s.fw.load = some 1 ∧ s.fw.startBy = none) ∧
    (∃ (s : State) (n : Nat) (d : Nat), Calm s ∧ s.fw.load = some n ∧ s.fw.startBy = some d ∧ s.fw.switchRun = none) ∧
    (∃ (s : State) (d : Nat), Calm s ∧ s.fw.load = some 0 ∧ s.fw.startBy = some d ∧ s.cclk ≤ d ∧ hasFlash s 1 = true) ∧
    (∃ (s : State), Calm s ∧ s.fw.switchWait = true ∧ s.fw.parked = []) ∧
    (∃ (s : State) (d : Nat), Calm s ∧ s.fw.switchRun = some d ∧ s.cclk ≤ d) ∧
    (∃ (s : State) (cmd : Cmd) (l : List Word) (v : BitVec 16), Calm s ∧ s.fw.parked = [⟨cmd, .flash⟩] ∧ cmd.wq = none ∧ s.sramProof = none
        ∧ verify (l.take 131072) = some v ∧ 4 ≤ l.length ∧ (∀ b : Bool, firstDenied s 9 (slotBase (!s.fw.active)) (l.take 131072).length
        b = none)) ∧
    (∃ (s : State) (cmd : Cmd) (img : Image) (b : Bool), Calm s ∧ s.saves = [⟨.reply cmd, some img, b⟩] ∧ s.fw.parked = [⟨cmd, .save⟩] ∧
        cmd.wq = none ∧ cmd.op = 0x60 ∧ saveDenied b img s = none) ∧
    (∃ (s : State) (p : Proposal), Calm s ∧ s.prot.props = [p] ∧ s.cclk ≤ p.until_) := by
  refine ⟨⟨{ base with fw := { load := some 0 } }, 0, [0xF1A8281600000000, 0x0007000000000028, (crc32 (wordBytes 99)).setWidth 64, 0, 99], 7,
      calm_of ?_, ?_⟩,
   ⟨{ base with fw := { load := some 1 } }, calm_of ?_, ?_⟩,
   ⟨{ base with fw := { load := some 1, startBy := some 400 } }, 1, 400, calm_of ?_, ?_⟩,
   ⟨regs [(0x118, 0x1000)] ({ base with fw := { load := some 0, startBy := some 400 } }), 400, calm_of ?_, ?_⟩,
   ⟨{ base with fw := { up := true, switchWait := true } }, calm_of ?_, ?_⟩,
   ⟨{ base with fw := { switchRun := some 400, active := true } }, 400, calm_of ?_, ?_⟩,
   ⟨{ base with fw := { up := true, parked := [⟨{ op := 0x60, p := pk }, .flash⟩] } }, { op := 0x60, p := pk }, [0xF1A8281600000000,
      0x0007000000000028, (crc32 (wordBytes 99)).setWidth 64, 0, 99], 7, calm_of ?_, ?_, ?_, ?_⟩,
   ⟨{ { base with fw := { up := true, parked := [⟨{ op := 0x60, p := pk }, .save⟩] } } with saves := [⟨.reply { op := 0x60, p := pk }, some { gen := 6, fwVersion := 3, fwSlot := true, regs := [(0x90100, 5)], log := {}, blocks := [], remaps := [(8, 4)], ver := (1, 3) }, true⟩] },
      { op := 0x60, p := pk },
      { gen := 6, fwVersion := 3, fwSlot := true, regs := [(0x90100, 5)], log := {}, blocks := [], remaps := [(8, 4)], ver := (1, 3) },
      true, calm_of ?_, ?_, ?_, ?_, ?_, save_allowed ?_⟩,
   ⟨{ base with prot := { props := [⟨3, 1, 5, [9], 500⟩] } }, ⟨3, 1, 5, [9], 500⟩, calm_of ?_, ?_⟩⟩ <;> decide +kernel

/-- Witnesses for `Obligations.ProposalStored`. -/
theorem wit_ProposalStored :
    (∃ (p : Pkt) (s : State) (l : List (Word × List Word)), FwReady s ∧ GoodHead 0x68 p ∧ p.arg = 0 ∧ authOf s p.ap ≠ 0 ∧ 2 ≤ p.pay.length ∧
        itemsOf 256 p.pay = some l ∧ l.all (fun x => !itemBad s x) = true ∧ s.prot.props.length < 4 ∧ (∀ x ∈ s.prot.props ++
        s.prot.ended, x.id ≠ s.aon.nextProp)) ∧
    (∃ (p : Pkt) (s : State) (id : BitVec 16), FwReady s ∧ p.arg = 0 ∧ GoodHead 0x6A p ∧ p.pay = [(0 : BitVec 16) ++ id ++ (0 : BitVec 32)]
        ∧ authOf s p.ap ≠ 0 ∧ s.prot.props.any (·.id == id) = true) ∧
    (∃ (p : Pkt) (s : State), FwReady s ∧ p.arg = 0 ∧ GoodHead 0x6B p ∧ p.pay = []) := by
  refine ⟨⟨{ pk with pay := [0x4900000002000000, 0x30008, 0x0000001400000000] }, regs [(0x30000, 1), (0x30004, 2)] base, [(0x4900000002000000,
      [0x30008, 0x0000001400000000])], ready_of ?_, head_of ?_, ?_, ?_, ?_, ?_⟩,
   ⟨{ pk with pay := [0x300000000] },
      { regs [(0x30000, 1), (0x30004, 2)] base with prot := { props := [{ id := 3, auth := 1, digest := digestOf [0x4900000002000000, 0x30008, 0x0000001400000000], words := [0x4900000002000000, 0x30008, 0x0000001400000000], until_ := 500 }] } },
      3, ready_of ?_, ?_, head_of ?_, ?_⟩,
   ⟨pk,
      { regs [(0x30000, 1), (0x30004, 2)] base with prot := { props := [{ id := 3, auth := 1, digest := digestOf [0x4900000002000000, 0x30008, 0x0000001400000000], words := [0x4900000002000000, 0x30008, 0x0000001400000000], until_ := 500 }] } },
      ready_of ?_, ?_, head_of ?_, ?_⟩⟩ <;> decide +kernel

/-- Witnesses for `Obligations.CountersignApplies`. -/
theorem wit_CountersignApplies :
    (∃ (p : Pkt) (s : State) (t : State) (x : Proposal), FwReady s ∧ GoodHead 0x69 p ∧ p.arg = 0 ∧ p.pay = [(0 : BitVec 16) ++ x.id ++
        x.digest] ∧ authOf s p.ap ≠ 0 ∧ (s.prot.props ++ s.prot.ended).find? (·.id == x.id) = some x ∧ x.auth.toNat ≠ authOf s p.ap ∧
        s.cclk < x.until_ ∧ runItems p.ap ((itemsOf 256 x.words).getD []) 0 (takenIn p s) = (none, t) ∧ Calm t ∧ t.fw.parked = []) ∧
    (∃ (p : Pkt) (s : State) (x : Proposal) (a : Nat) (i : RegInfo) (v : Reg), FwReady s ∧ Settled s ∧ GoodHead 0x69 p ∧ p.arg = 0 ∧ p.pay =
        [(0 : BitVec 16) ++ x.id ++ x.digest] ∧ authOf s p.ap ≠ 0 ∧ (s.prot.props ++ s.prot.ended).find? (·.id == x.id) = some x ∧
        x.auth.toNat ≠ authOf s p.ap ∧ s.cclk < x.until_ ∧ x.words = [0x4900000002000000, BitVec.ofNat 64 a, v ++ (0 : BitVec 32)] ∧ a /
        0x10000 = 3 ∧ a ≠ 0x30000 ∧ a ≠ 0x30004 ∧ a ≠ 0x3000C ∧ regInfo s.part.grade a = some i ∧ i.kind = .fields ∧ ownRule s p.ap a
        (getReg s a) (stored i .change (getReg s a) v) v = none ∧ bindBad s = false ∧ s.saves = []) := by
  refine ⟨⟨{ pk with ap := 1, pay := [(0 : BitVec 16) ++ (3 : BitVec 16) ++ digestOf [0x4900000002000000, 0x30008, 0x0000001400000000]] },
      { regs [(0x30000, 1), (0x30004, 2)] base with prot := { props := [{ id := 3, auth := 1, digest := digestOf [0x4900000002000000, 0x30008, 0x0000001400000000], words := [0x4900000002000000, 0x30008, 0x0000001400000000], until_ := 500 }] } },
      (runItems 1 [(0x4900000002000000, [0x30008, 0x0000001400000000])] 0 (takenIn
      ({ pk with ap := 1, pay := [(0 : BitVec 16) ++ (3 : BitVec 16) ++ digestOf [0x4900000002000000, 0x30008, 0x0000001400000000]] })
      ({ regs [(0x30000, 1), (0x30004, 2)] base with prot := { props := [{ id := 3, auth := 1, digest := digestOf [0x4900000002000000, 0x30008, 0x0000001400000000], words := [0x4900000002000000, 0x30008, 0x0000001400000000], until_ := 500 }] } }))).2,
      { id := 3, auth := 1, digest := digestOf [0x4900000002000000, 0x30008, 0x0000001400000000], words := [0x4900000002000000, 0x30008, 0x0000001400000000], until_ := 500 },
      ready_of ?_, head_of ?_, ?_, ?_, ?_, ?_, ?_, ?_, ?_, calm_of ?_, ?_⟩,
   ⟨{ pk with ap := 1, pay := [(0 : BitVec 16) ++ (3 : BitVec 16) ++ digestOf [0x4900000002000000, 0x30008, 0x0000001400000000]] },
      { regs [(0x30000, 1), (0x30004, 2)] base with prot := { props := [{ id := 3, auth := 1, digest := digestOf [0x4900000002000000, 0x30008, 0x0000001400000000], words := [0x4900000002000000, 0x30008, 0x0000001400000000], until_ := 500 }] } },
      { id := 3, auth := 1, digest := digestOf [0x4900000002000000, 0x30008, 0x0000001400000000], words := [0x4900000002000000, 0x30008, 0x0000001400000000], until_ := 500 },
      0x30008, (regInfo .g12 0x30008).getD {}, 20, ready_of ?_, settled_of ?_, head_of ?_, ?_, ?_, ?_, ?_, ?_, ?_, ?_, ?_, ?_, ?_, ?_,
      ?_, ?_⟩⟩ <;> decide +kernel

/-- Witnesses for `Obligations.ResetsAndStart`. -/
theorem wit_ResetsAndStart :
    (∃ (s : State), s.pins.resetN = true ∧ tapHolds s = false) ∧
    (∃ (s : State), tapHolds s = false ∧ s.dev.st ≠ .shutdown ∧ s.aon.shut = false ∧ s.dev.unstarted = true) ∧
    (∃ (s : State), tapHolds s = false ∧ s.dev.st ≠ .shutdown ∧ s.aon.shut = false ∧ s.dev.unstarted = false) ∧
    (∃ (s : State), s.dev.st ≠ .shutdown) ∧
    (∃ (s : State) (img : Option Image), s.dev.st = .startup ∧ Calm { s with dev := { s.dev with st := .run } } ∧ img = (if
        s.dev.factoryStrap then none else (newestImage s).map (·.2)) ∧ (∀ c : Chn, (chan s c).copy = none ∧ (chan s c).proof = none ∧
        (chan s c).pends = [] ∧ (chan s c).upd.job = none)) ∧
    (∃ (s : State) (c : Chn) (cmd : Cmd), Calm s ∧ leadOf s c = c ∧ (chan s c).draining = true ∧ drained s c = true ∧ s.fw.parked = [⟨cmd,
        .quiesce c⟩] ∧ cmd.wq = none) ∧
    (∃ (s : State) (c : Chn) (cmd : Cmd), Calm s ∧ leadOf s c = c ∧ (chan s c).resetting = some cmd ∧ (chan s c).resetDone = true ∧ washing
        s c = false ∧ s.fw.parked = [⟨cmd, .chReset c⟩] ∧ cmd.wq = none) := by
  refine ⟨⟨{ mem [(9, 5), (0x300005, 6)] table with aon := { img0 := some { gen := 6, fwVersion := 3, fwSlot := true, regs := [(0x90100, 5)], log := {}, blocks := [], remaps := [(8, 4)], ver := (1, 3) } } },
      ?_⟩,
   ⟨{ mem [(9, 5)] table with dev := { base.dev with st := .held, unstarted := true, cause := 1 } }, ?_⟩,
   ⟨{ mem [(9, 5), (0x300005, 6)] table with aon := { img0 := some { gen := 6, fwVersion := 3, fwSlot := true, regs := [(0x90100, 5)], log := {}, blocks := [], remaps := [(8, 4)], ver := (1, 3) } } },
      ?_⟩,
   ⟨{ mem [(9, 5), (0x300005, 6)] table with aon := { img0 := some { gen := 6, fwVersion := 3, fwSlot := true, regs := [(0x90100, 5)], log := {}, blocks := [], remaps := [(8, 4)], ver := (1, 3) } } },
      ?_⟩,
   ⟨{ ch0 (fun k => { k with stamp := 9, stamps := [(3, ⟨1, 2⟩)], parts := [(3, { st := .opened, live := true }), (4, { st := .fixing })], rows := [(40, freshRow 5 0xff 0b1100)], owner := [(0, 3, 0)] }) { State.reset with fw := {} } with dev := { State.reset.dev with tablesKept := true, factoryStrap := false }, remaps := [(5, 3)], aon := { img0 := some { gen := 6, fwVersion := 3, fwSlot := true, regs := [(0x90100, 5), (chAddr 0 0x30, 0x80100000), (chAddr 0 0x34, 0x50000)], log := {}, blocks := [], remaps := [(8, 4)], ver := (1, 3) } } },
      some
      { gen := 6, fwVersion := 3, fwSlot := true, regs := [(0x90100, 5), (chAddr 0 0x30, 0x80100000), (chAddr 0 0x34, 0x50000)], log := {}, blocks := [], remaps := [(8, 4)], ver := (1, 3) },
      ?_, calm_of ?_, ?_⟩,
   ⟨{ ch0 (fun k => { k with draining := true }) table with fw := { up := true, parked := [⟨{ op := 0x60, p := pk }, .quiesce 0⟩] } }, 0,
      { op := 0x60, p := pk }, calm_of ?_, ?_, ?_⟩,
   ⟨{ ch0 (fun k => { k with resetting := some { op := 0x60, p := pk }, resetDone := true }) table with fw := { up := true, parked := [⟨{ op := 0x60, p := pk }, .chReset 0⟩] } },
      0, { op := 0x60, p := pk }, calm_of ?_, ?_, ?_, ?_⟩⟩ <;> decide +kernel

/-- Witnesses for `Obligations.ResetWhileShut`. -/
theorem wit_ResetWhileShut :
    (∃ (s : State), tapHolds s = false ∧ s.aon.shut = true ∧ (s.dev.st = .shutdown → ∀ v ∈ s.dev.temps, sgn v < 460)) ∧
    (∃ (s : State), tapHolds s = false ∧ s.aon.shut = true ∧ s.dev.st = .shutdown ∧ (∃ v ∈ s.dev.temps, 460 ≤ sgn v)) := by
  refine ⟨⟨{ mem [(9, 5)] table with aon := { shut := true }, dev := { base.dev with st := .shutdown, temps := [100, 100, 100, 459, 100, 100] } },
      ?_, ?_, fun _ v hv => of_decide_eq_true (List.all_eq_true.mp (show (List.all ([100, 100, 100, 459, 100, 100] : List (BitVec 16))
      fun v => decide (sgn v < 460)) = true from ?_) v hv)⟩,
   ⟨{ mem [(9, 5)] table with aon := { shut := true }, dev := { base.dev with st := .shutdown, temps := [100, 100, 460, 100, 100, 100] } },
      ?_, ?_, ?_, ⟨460, ?_, ?_⟩⟩⟩ <;> decide +kernel

/-- Witnesses for `Obligations.ServiceAccess`. -/
theorem wit_ServiceAccess :
    (∃ (s : State), Calm s) ∧
    (∃ (s : State), Calm s) ∧
    (∃ (s : State) (b3 : Byte) (b2 : Byte) (b1 : Byte) (b0 : Byte), Calm s ∧ b3 ++ b2 ++ b1 ++ b0 = devIdReg s) ∧
    (∃ (s : State), Calm s) ∧
    (∃ (s : State) (u : State), Calm s ∧ u.dev.st = .darkroom ∧ regB u 0x20130 30 = true) ∧
    (∃ (s : State) (x : Temps), Calm s ∧ s.dev.temps = [x.t0, x.t1, x.t2, x.t3, x.t4, x.t5]) ∧
    (∃ (s : State), Calm s) ∧
    (∃ (s : State), Calm s ∧ tapHolds s = false) ∧
    (∃ (s : State) (code : Byte), Calm s ∧ tapHolds s = false ∧ code ∉ ([0x00, 0x02, 0x03, 0x04, 0x05, 0x06] : List Byte)) ∧
    (∃ (s : State), Calm s ∧ tapHolds s = false) ∧
    (∃ (s : State) (code : Byte), Calm s ∧ code ∈ ([0x00, 0x03, 0x04, 0x05, 0x06] : List Byte)) ∧
    (∃ (s : State) (a : Reg) (i : RegInfo), Calm s ∧ s.svc.ir = 0x20 ∧ Settled s ∧ mbxAddr a.toNat = false ∧ regInfo s.part.grade a.toNat =
        some i ∧ i.kind = .fields ∧ a.toNat ≠ 0x10020 ∧ ¬(0x48000 ≤ a.toNat ∧ a.toNat < 0x48100)) ∧
    (∃ (s : State) (a : Reg) (v : Reg) (i : RegInfo), Calm s ∧ s.svc.ir = 0x20 ∧ Settled s ∧ mbxAddr a.toNat = false ∧ regInfo s.part.grade
        a.toNat = some i ∧ i.kind = .fields ∧ a.toNat / 0x10000 = 5 ∧ a.toNat < 0x51000 ∧ Accepted a.toNat v s) := by
  refine ⟨⟨{ base with pins := { base.pins with alertLow := true } }, calm_of ?_⟩,
   ⟨{ base with pins := { base.pins with alertLow := true } }, calm_of ?_⟩,
   ⟨{ base with pins := { base.pins with alertLow := true } }, (devIdReg base).extractLsb' 24 8, (devIdReg base).extractLsb' 16 8,
      (devIdReg base).extractLsb' 8 8, (devIdReg base).extractLsb' 0 8, calm_of ?_, ?_⟩,
   ⟨{ base with pins := { base.pins with alertLow := true } }, calm_of ?_⟩,
   ⟨{ base with pins := { base.pins with alertLow := true } }, { base with dev := { base.dev with st := .darkroom } }, calm_of ?_, ?_⟩,
   ⟨{ base with dev := { base.dev with temps := [0x101, 0x202, 0x303, 0x404, 0x505, 0x606] } }, ⟨0x101, 0x202, 0x303, 0x404, 0x505, 0x606⟩,
      calm_of ?_, ?_⟩,
   ⟨{ base with pins := { base.pins with alertLow := true } }, calm_of ?_⟩,
   ⟨{ base with pins := { base.pins with alertLow := true } }, calm_of ?_, ?_⟩,
   ⟨{ base with pins := { base.pins with alertLow := true } }, 0x20, calm_of ?_, ?_⟩,
   ⟨{ base with pins := { base.pins with alertLow := true } }, calm_of ?_, ?_⟩,
   ⟨{ base with pins := { base.pins with alertLow := true } }, 0x04, calm_of ?_, ?_⟩,
   ⟨{ table with svc := { ir := 0x20 } }, 0x90100, (regInfo .g12 0x90100).getD {}, calm_of ?_, ?_, settled_of ?_, ?_, ?_⟩,
   ⟨{ table with svc := { ir := 0x20 } }, 0x50104, 0x12345678, (regInfo .g12 0x50104).getD {}, calm_of ?_, ?_, settled_of ?_, ?_, ?_, ?_,
      ?_, ?_, accepted_of ?_⟩⟩ <;> decide +kernel

/-- Witnesses for `Obligations.StepAnswers`. -/
theorem wit_StepAnswers : (∃ s : State, s.pending = [] ∧ running s = true) ∧ (∃ s : State, s.pending = [] ∧ running s = false) :=
  ⟨⟨base, rfl, by decide +kernel⟩, ⟨{ base with pins := { base.pins with resetN := false }, dev := { base.dev with st := .held } }, rfl, by decide +kernel⟩⟩

/-- Witness for `Obligations.StoppedCoreUnmoved`. -/
theorem wit_StoppedCoreUnmoved : ∃ (i : Instr) (s : State), running s = false ∧ alwaysOn i = false :=
  ⟨.nop pk, { base with dev := { base.dev with st := .darkroom } }, by decide +kernel, rfl⟩

/-- Witness for `Obligations.StepKeepsTidy`: a proposal within its window, a save under way and channels that serve. -/
theorem wit_StepKeepsTidy : ∃ s t : State, Tidy s ∧ running s = true ∧ s.prot.props ≠ [] ∧ s.saves ≠ [] ∧ step s = .next t :=
  ⟨{ base with prot := { props := [⟨3, 1, 5, [9], 500⟩] },
               saves := [⟨.nobody, some { gen := 6, fwVersion := 3, fwSlot := true, regs := [], log := {}, blocks := [], remaps := [], ver := (1, 3) }, true⟩] },
   _, ⟨fun _ p h k => by
      have e : p = ⟨3, 1, 5, [9], 500⟩ := List.mem_singleton.mp h
      subst e; exact absurd k (by decide +kernel),
     fun _ x h => by cases h; rfl, fun _ c _ => Or.inl (by revert c; decide +kernel)⟩,
   by decide +kernel, by simp, by simp, rfl⟩

/-- Witness for `Obligations.StepKeepsStored`: an event queue that holds two words, and a word of it stored. -/
theorem wit_StepKeepsStored : ∃ s t : State, Stored s ∧ s.qm.desc ≠ [] ∧ s.sram ≠ [] ∧ step s = .next t := by
  refine ⟨{ base with qm := { desc := [(5, { work := false, base := 64, k := 4, wr := 5, rd := 3 })] }, sram := [(queueBase + 67, encode 9)] },
    _, ⟨by decide +kernel, by decide +kernel, fun q => ?_, fun j h => by cases h⟩, by decide +kernel, by decide +kernel, rfl⟩
  by_cases h : q = 5
  · subst h; decide +kernel
  · have e : ∀ x : QDesc, mget [(5, x)] q = none := fun x => by simp [mget, Ne.symm h]
    simp [qDesc, mgetD, e, depth]

/-- Witnesses for the last two clauses of `Obligations.MatchRules`. -/
theorem wit_MatchRules : (∃ a b : Cand, a.entry ≠ b.entry ∧ a.prio = b.prio) ∧ ∃ a b : LkRes, a.hit = true ∧ b.hit = true ∧ a.dev ≠ b.dev :=
  ⟨⟨⟨7, 1, 0, 0, 1, false⟩, ⟨7, 2, 0, 0, 2, false⟩, by decide, rfl⟩, ⟨{ hit := true, dev := 1 }, { hit := true, dev := 2 }, rfl, rfl, by decide⟩⟩

/-- Witness for `Obligations.WriteReadsBack`: the last word below the retained memory, and another. -/
theorem wit_WriteReadsBack : ∃ w v : Nat, w < retainBase ∧ v ≠ w ∧ memId w ≠ none := ⟨retainBase - 1, 5, by decide, by decide, by decide⟩

end Sys2Proof.Tests.Witness
end

section
/-! PROOFS. The match array compares and ranks by the rules of the spec (02 R34, R40, R43): what one compare answers, in the bits of its
operands, and the order of two candidates. -/

namespace Sys2Proof.Proofs.MatchArray
open Sys2Proof Sys2Proof.Machine

/-! ### Compare under a mask -/

/-- No difference is left under the mask just where the two words agree on every bit that it keeps. -/
theorem xor_and_eq_zero_iff {n : Nat} (d k m : BitVec n) :
    (d ^^^ k) &&& m = 0 ↔ ∀ i < n, m.getLsbD i = true → d.getLsbD i = k.getLsbD i := by
  constructor
  · intro h i _ hm
    have hbit : ((d ^^^ k) &&& m).getLsbD i = false := by simp [h]
    simpa [hm] using hbit
  · intro h
    apply BitVec.eq_of_getLsbD_eq
    intro i hi
    cases hm : m.getLsbD i with
    | false => simp [hm]
    | true => simp [hm, h i hi hm]

/-- The bits of the tag's byte within a half-row (02 R40). -/
theorem getLsbD_tagByte (i : Nat) : (0xff : BitVec 40).getLsbD i = decide (i < 8) := by
  have hmask : (0xff : BitVec 40).toNat = 2 ^ 8 - 1 := rfl
  rw [BitVec.getLsbD, hmask, Nat.testBit_two_pow_sub_one]

/-- The tag agrees: a compare cut to the low byte looks at the eight bits of that byte. -/
theorem tag_agrees_iff (d k m : BitVec 40) :
    (d ^^^ k) &&& m &&& 0xff = 0 ↔ ∀ i < 8, m.getLsbD i = true → d.getLsbD i = k.getLsbD i := by
  rw [BitVec.and_assoc, xor_and_eq_zero_iff]
  simp only [BitVec.getLsbD_and, getLsbD_tagByte, Bool.and_eq_true, decide_eq_true_eq]
  exact ⟨fun h i hi hm => h i (by omega) ⟨hm, hi⟩, fun h i _ hm => h i hm.2 hm.1⟩

/-- A field is the number that its slice of the word holds. -/
theorem fld_eq_extractLsb' {n : Nat} (w : BitVec n) (hi lo : Nat) : fld w hi lo = (w.extractLsb' lo (hi + 1 - lo)).toNat := by
  rw [fld, BitVec.extractLsb'_toNat]

/-- A ternary half-row, bit by bit (02 R34). -/
theorem ternMatch_iff (d m k : BitVec 40) :
    ternMatch d m k = true ↔ ∀ i < 40, m.getLsbD i = true → d.getLsbD i = k.getLsbD i := by
  rw [ternMatch, beq_iff_eq]
  exact xor_and_eq_zero_iff d k m

/-- A range slot, by the fields of its two planes (02 R40). -/
theorem rangeMatch_iff (d m k : BitVec 40) :
    rangeMatch d m k = true ↔
      (if fld d 39 24 ≤ fld m 39 24 then fld d 39 24 ≤ fld k 39 24 ∧ fld k 39 24 ≤ fld m 39 24
        else fld d 39 24 ≤ fld k 39 24 ∨ fld k 39 24 ≤ fld m 39 24) ∧
      ∀ i < 8, m.getLsbD i = true → d.getLsbD i = k.getLsbD i := by
  simp only [rangeMatch, Bool.and_eq_true, beq_iff_eq, tag_agrees_iff]
  split <;> simp

/-! ### The order of candidates (02 R43) -/

/-- On one device: the higher priority first, then the lower entry number. -/
theorem better_iff (a b : Cand) :
    better a b = true ↔ b.prio.toNat < a.prio.toNat ∨ a.prio = b.prio ∧ a.entry < b.entry := by
  by_cases hp : a.prio = b.prio
  · simp [better, hp]
  · simp [better, hp]

/-- Of two different entries of a device exactly one is the better: priorities and entry numbers are compared as numbers. -/
theorem better_eq_not_better {a b : Cand} (he : a.entry ≠ b.entry) : better a b = !better b a := by
  have htotal : better a b = true ↔ ¬ better b a = true := by
    rw [better_iff, better_iff, BitVec.toNat_eq, BitVec.toNat_eq]
    omega
  rw [Bool.eq_iff_iff, htotal, Bool.not_eq_true, Bool.not_eq_true']

/-- Across devices the lower device id comes between priority and entry number. -/
theorem ranksFirst_iff {a b : LkRes} (ha : a.hit = true) (hb : b.hit = true) :
    ranksFirst a b = true ↔ b.prio.toNat < a.prio.toNat ∨
      a.prio = b.prio ∧ (a.dev.toNat < b.dev.toNat ∨ a.dev = b.dev ∧ a.entry < b.entry) := by
  by_cases hp : a.prio = b.prio
  · by_cases hd : a.dev = b.dev
    · simp [ranksFirst, ha, hb, hp, hd]
    · simp [ranksFirst, ha, hb, hp, hd]
  · simp [ranksFirst, ha, hb, hp]

/-- Settles O9: each compare by the bits it keeps, and each order by its tie-breaks. -/
theorem matchRules : Obligations.MatchRules := by
  refine ⟨⟨ternMatch_iff, fun d m k => ?_⟩, fun a b he => ⟨better_iff a b, better_eq_not_better he⟩, fun a b => ranksFirst_iff⟩
  simpa only [fld_eq_extractLsb'] using rangeMatch_iff d m k

end Sys2Proof.Proofs.MatchArray
end

section
/-! PROOFS. NOP and ECHO (15 R379): the reply that each sends, and the ECHO that waits for the slots of its reply (14 R347). -/

namespace Sys2Proof.Proofs.CommandReference
open Sys2Proof Sys2Proof.Machine Sys2Proof.Laws

/-! ### Calm states -/

/-- The check of a packet leaves a calm state calm: it numbers the command and notes a completion owed. -/
theorem checkedIn_calm {s : State} (h : Calm s) (p : Pkt) : Calm (checkedIn p s) :=
  { run := h.run, more := h.more, soon := h.soon, late := h.late, echoes := h.echoes, units := h.units, lanes := h.lanes, upd := h.upd
    queue := h.queue, wait := h.wait, frames := h.frames, touched := h.touched, valid := h.valid }

/-- A reply given to the reply store leaves a calm state calm: no unit waits for it. -/
theorem replied_calm {s : State} (h : Calm s) (op : Byte) (p : Pkt) (id : Nat) (st : Byte) (info : BitVec 24) (pay : List Word) (ready : Nat) :
    Calm (replied op p id st info pay ready s) :=
  { run := h.run, more := h.more, soon := h.soon, late := h.late, echoes := h.echoes, units := h.units, lanes := h.lanes, upd := h.upd
    queue := h.queue, wait := h.wait, frames := h.frames, touched := h.touched, valid := h.valid }

/-! ### The reply of a command that its packet brought -/

/-- A reply without payload goes to the reply store as it is. -/
theorem sendReply_header (op : Byte) (p : Pkt) (s u : State) (st : Byte) (info ready : Nat) :
    sendReply (cmdOf op p s) (mkReply (cmdOf op p s) st info [] ready) u = replied op p s.nextId st (BitVec.ofNat 24 info) [] ready u := by
  simp only [mkReply, ite_self]
  rfl

/-- A reply with ST_OK carries its payload. -/
theorem sendReply_ok (op : Byte) (p : Pkt) (s u : State) (info : Nat) (pay : List Word) (ready : Nat) :
    sendReply (cmdOf op p s) (mkReply (cmdOf op p s) stOk info pay ready) u = replied op p s.nextId stOk (BitVec.ofNat 24 info) pay ready u :=
  rfl

/-! ### NOP -/

/-- A command of no payload and no argument is refused for its payload first, then for its argument (15 R379). -/
theorem plainBad_status (op : Byte) (p : Pkt) (s : State) :
    (plainBad (cmdOf op p s)).getD stOk = if p.pay ≠ [] then stBadLen else if p.arg ≠ 0 then stBadArg else stOk := by
  have hclear : argClear (cmdOf op p s) (BitVec.allOnes 24) = (p.arg == 0) := by rw [argClear, BitVec.and_allOnes]; rfl
  rw [plainBad, hclear]
  by_cases hpay : p.pay = []
  · by_cases harg : p.arg = 0#24 <;> simp [firstBad, payN, cmdOf, hpay, harg]
  · simp [firstBad, payN, cmdOf, hpay]

/-- A NOP is answered by its status alone. -/
theorem nopRun_eq (p : Pkt) (s : State) :
    nopRun (cmdOf 0x00 p s) (checkedIn p s) = replied 0x00 p s.nextId
      (if p.pay ≠ [] then stBadLen else if p.arg ≠ 0 then stBadArg else stOk) 0 [] (s.cclk + 6) (checkedIn p s) := by
  rw [nopRun, sendReply_header, plainBad_status]
  rfl

theorem execNop_eq {p : Pkt} {s : State} (h : Serving s) (hp : GoodHead 0x00 p) :
    exec (.nop p) s = .next (afterwards (replied 0x00 p s.nextId
      (if p.pay ≠ [] then stBadLen else if p.arg ≠ 0 then stBadArg else stOk) 0 [] (s.cclk + 6) (checkedIn p s))) := by
  calc exec (.nop p) s
      = .next (settle (packet 0x00 p s)) := rfl
    _ = .next (settle (nopRun (cmdOf 0x00 p s) (checkedIn p s))) := by rw [packet_serving h (by decide) hp]; rfl
    _ = _ := by rw [nopRun_eq, settle_calm (replied_calm (checkedIn_calm h.toCalm p) ..)]

/-! ### ECHO -/

/-- The state in which one ECHO waits for the slots of its reply. -/
def echoHeld (c : Cmd) (s : State) : State := { s with dev := { s.dev with echoes := [c] } }

/-- A checked ECHO, where no other waits, is the one that waits. -/
theorem echoRun_alone {s : State} (h : s.dev.echoes = []) (c : Cmd) : echoRun c s = echoTake (echoHeld c s) := by
  rw [echoRun, h]
  rfl

/-- An ECHO whose slots cannot be reserved goes on waiting (14 R347). -/
theorem echoTake_held {s : State} {c : Cmd} (h : slotsShort (echoHeld c s) c = true) : echoTake (echoHeld c s) = echoHeld c s :=
  if_pos h

/-- An ECHO whose slots can be reserved is answered, and waits no longer. -/
theorem echoTake_taken {s : State} {c : Cmd} (he : s.dev.echoes = []) (h : slotsShort (echoHeld c s) c = false) :
    echoTake (echoHeld c s) = sendReply c (mkReply c stOk c.p.arg.toNat c.p.pay (s.cclk + 6)) s := by
  have hleft : (echoHeld c s).dev.echoes.filter (·.id != c.id) = [] := by simp [echoHeld]
  have hnone : { echoHeld c s with dev := { (echoHeld c s).dev with echoes := [] } } = s := by rw [← he]; rfl
  calc echoTake (echoHeld c s)
      = sendReply c (mkReply c stOk c.p.arg.toNat c.p.pay (s.cclk + 6))
          { echoHeld c s with dev := { (echoHeld c s).dev with echoes := (echoHeld c s).dev.echoes.filter (·.id != c.id) } } :=
        if_neg (Bool.eq_false_iff.mp h)
    _ = _ := by rw [hleft, hnone]

/-- While one ECHO waits for slots, no unit takes anything in a state that is calm but for it. -/
theorem settle_echoHeld {s : State} (h : Calm s) {c : Cmd} (hc : slotsShort (echoHeld c s) c = true) :
    settle (echoHeld c s) = afterwards (echoHeld c s) := by
  have hunits : settleUnits (echoHeld c s) = echoHeld c s := by
    rw [settleUnits, runLate_empty (s := echoHeld c s) h.late, echoTake_held hc, serveUnits_empty (s := echoHeld c s) h.units h.lanes,
      pumpAll_empty (s := echoHeld c s) h.upd, fwDrain_empty (s := echoHeld c s) h.queue, pumpAll_empty (s := echoHeld c s) h.upd,
      pumpRing_empty (s := echoHeld c s) h.wait, pumpFrames_empty (s := echoHeld c s) h.frames, settleQs_empty (s := echoHeld c s) h.touched]
  have hmore : moreNow (echoHeld c s) = false := moreNow_of_moreQ h.more
  rw [settle, if_pos (running_of_run (s := echoHeld c s) h.run), settleRun, offerSoon_empty (s := echoHeld c s) h.soon, hmore, if_neg (by decide),
    hunits]

/-- A good ECHO that a serving part checks is the only one that waits for slots. -/
theorem execEcho_eq {p : Pkt} {s : State} (h : Serving s) (hp : GoodHead 0x01 p) :
    exec (.echo p) s = .next (settle (echoTake (echoHeld (cmdOf 0x01 p s) (checkedIn p s)))) := by
  calc exec (.echo p) s
      = .next (settle (packet 0x01 p s)) := rfl
    _ = .next (settle (echoRun (cmdOf 0x01 p s) (checkedIn p s))) := by rw [packet_serving h (by decide) hp]; rfl
    _ = _ := by rw [echoRun_alone (checkedIn_calm h.toCalm p).echoes]

theorem execEcho_roomy {p : Pkt} {s : State} (h : Serving s) (hp : GoodHead 0x01 p) (hr : EchoRoomy p s) :
    exec (.echo p) s = .next (afterwards (replied 0x01 p s.nextId stOk p.arg p.pay (s.cclk + 6) (checkedIn p s))) := by
  have hcalm : Calm (checkedIn p s) := checkedIn_calm h.toCalm p
  have harg : BitVec.ofNat 24 (cmdOf 0x01 p s).p.arg.toNat = p.arg := BitVec.ofNat_toNat ..
  rw [execEcho_eq h hp, echoTake_taken hcalm.echoes hr, sendReply_ok, harg, settle_calm (replied_calm hcalm ..)]
  rfl

theorem execEcho_held {p : Pkt} {s : State} (h : Serving s) (hp : GoodHead 0x01 p) (hr : ¬ EchoRoomy p s) :
    exec (.echo p) s = .next (afterwards { checkedIn p s with dev := { s.dev with echoes := [cmdOf 0x01 p s] } }) := by
  have hshort : slotsShort (echoHeld (cmdOf 0x01 p s) (checkedIn p s)) (cmdOf 0x01 p s) = true := (Bool.not_eq_false _).mp hr
  rw [execEcho_eq h hp, echoTake_held hshort, settle_echoHeld (checkedIn_calm h.toCalm p) hshort]
  rfl

/-- Settles O8: a NOP is answered by its status alone; an ECHO is answered where its slots can be reserved, and waits where they cannot. -/
theorem nopEcho : Obligations.NopEcho := fun _ _ h =>
  ⟨execNop_eq h, fun hp => ⟨execEcho_roomy h hp, execEcho_held h hp⟩⟩

end Sys2Proof.Proofs.CommandReference
end
